-- ==== Sys2Proof/Word.lean ====
section
/-! DEFINITION. The widths of the block's values (spec/00_scope.md R7, spec/10_state.md R10): every value is an
unsigned bit vector, bit 0 the least significant. -/

namespace Sys2Proof

/-- A time in microseconds, `u32` (10_state R12, R13, R16, R17; 30_encoding R63). -/
abbrev Time := BitVec 32

/-- A `u16` field of a message record (10_state R20, R21). -/
abbrev Half := BitVec 16

/-- A `u8`: a `cmd`, an `adr`, a level index as ERRIDX returns it, a line (10_state R14, R22, R23, R25). -/
abbrev Byte := BitVec 8

/-- A slot number, `u2`: arithmetic on it is modulo 4, as 20_memory R41 asks of every index (10_state R18). -/
abbrev SlotIndex := BitVec 2

/-- The operation word `W`, 36 bits (30_encoding R61). -/
abbrev OpWord := BitVec 36

/-- The response word `Q`, 50 bits (30_encoding R64). -/
abbrev RespWord := BitVec 50

end Sys2Proof
end

