-- ==== Sys2Proof/Machine/State.lean ====
section
/-! DEFINITION. Everything the block holds (spec/10_state.md), as plain data, with its reset value, and the
reasons an operation may stop. The last fields of `State` are the model's own: the inputs and outputs of the two
ports (assumptions 3, 4, 8). -/

namespace Sys2Proof.Machine

/-- `lastLevelIndex`'s values, exactly the legal ones: `GAP`, or the index 0 to 24 of the half-bit in progress
(10_state R11, R28 item 1; 93_implementation_defined U3 prefers a type of exactly these 26 values).
DESIGN CHOICE (assumption 1): safe. -/
inductive LevelIndex where
  /-- `GAP`: between messages, waiting for a start bit. -/
  | gap
  /-- Half-bit `i` is in progress: even is active, odd is inactive. -/
  | half (i : Fin 25)
deriving DecidableEq, Repr

/-- A message record (10_state R19 to R23). -/
structure MessageRecord where
  /-- Time since the previous valid message's last bit, in units of 128 microseconds, saturated (10_state R20). -/
  gapTime : Half
  /-- Duration of the message in microseconds; 0 holds no unread data (10_state R21). -/
  lenTime : Half
  /-- The command field, 7 bits used (10_state R22). -/
  cmd : Byte
  /-- The address field, 5 bits used (10_state R23). -/
  adr : Byte
deriving DecidableEq, Repr

/-- A field of a slot with its width: the second half of an address of the message store (20_memory R40). -/
inductive SlotField : Nat → Type where
  | gapTime : SlotField 16
  | lenTime : SlotField 16
  | cmd : SlotField 8
  | adr : SlotField 8
deriving DecidableEq, Repr

/-- The message store: the array `slot[0..3]` (10_state R19). It is field-addressed and has no byte image
(20_memory R40, R43; assumption 2). -/
abbrev Store := Vector MessageRecord 4

/-- The hidden state of a TRYPOP in progress: how many of the six micro-steps it has done, the cursor snapshot, and
the copies of the fields it has read (10_state R26, 41_message_reader R127). -/
inductive TryPopCall where
  /-- No TRYPOP is in progress. -/
  | idle
  /-- After micro-step 1: the cursor snapshot `c`. -/
  | snapshot (c : SlotIndex)
  /-- After micro-step 2: `lenTime` of the current record, not zero. -/
  | lenRead (c : SlotIndex) (lenTime : Half)
  /-- After micro-step 3: `gapTime` of the current record as well, at most `maxRepeatGap`. -/
  | gapRead (c : SlotIndex) (lenTime gapTime : Half)
  /-- After micro-step 4: `cmd` and `adr` of the current record as well, equal to the previous record's. -/
  | matched (c : SlotIndex) (lenTime gapTime : Half) (cmd adr : Byte)
  /-- After micro-step 5: the copy that will be delivered. -/
  | copied (c : SlotIndex) (m : MessageRecord)
deriving DecidableEq, Repr

/-- One edge event of the monitored line (00_scope R8; 60_exceptions R165). -/
structure EdgeEvent where
  timestamp : Time
  level : Bool
deriving DecidableEq, Repr

/-- The outcome tag of an EDGE operation (40_edge_decoder R96, 30_encoding R72). -/
inductive EdgeOutcome where
  /-- `Ignored`: the idle filter, or an edge dropped by the gate. -/
  | ignored
  /-- `Continue`. -/
  | continues
  /-- `SoftError`. -/
  | softError
  /-- `HardError`. -/
  | hardError
  /-- `MessageCommitted`. -/
  | messageCommitted
deriving DecidableEq, Repr

/-- Why the machine could stop with a fault: never. No error of the block is a trap and no access can be out of
range (60_exceptions R160, R167; 20_memory R41; 40_edge_decoder R80), so the type has no constructor and nothing
raises one (assumption 13): safe. -/
inductive Fault where
deriving DecidableEq, Repr

/-- Why an operation has no meaning. -/
inductive Refusal where
  /-- Raised by an arm of `exec` for an instruction without a meaning: no arm does. Safe: nothing follows from it. -/
  | notModelled (mnemonic : String)
  /-- Raised by `exec` of a foreground operation in a state in which a TRYPOP is in progress: two overlapping
  foreground operations are given no meaning (60_exceptions R172; 93_implementation_defined U5, `refuse`). No step
  raises it: the foreground agent issues nothing while its call is in progress (assumption 7). Safe: the model
  stops where the spec has no behaviour. -/
  | foregroundBusy
deriving DecidableEq, Repr

/-- The state of the block (10_state R10), the hidden state of a TRYPOP (R26), and the ports. -/
structure State where
  /-- The state-machine position (10_state R11). -/
  lastLevelIndex : LevelIndex
  /-- Timestamp of the last validated half-bit boundary (10_state R12). -/
  lastHalfBitTime : Time
  /-- Timestamp of the last edge that was not ignored (10_state R13). -/
  lastFlipTime : Time
  /-- Level index at which the last hard error was declared (10_state R14). -/
  lastErrorAtLevelIndex : Byte
  /-- The one flag of the block (10_state R15). -/
  requestTinyErrorLevel : Bool
  /-- Timestamp of the last committed message's final edge (10_state R16). -/
  lastMsgTime : Time
  /-- Timestamp of the edge that began the message in progress (10_state R17). -/
  recvMsgTime : Time
  /-- The write cursor (10_state R18). -/
  cursor : SlotIndex
  /-- The message store (10_state R19). -/
  slot : Store
  /-- Are edge notifications delivered? (10_state R25) -/
  enabled : Bool
  /-- The line that is watched (10_state R25). -/
  watchLine : Byte
  /-- The TRYPOP in progress (10_state R26). -/
  call : TryPopCall
  /-- The model's own: what arrives at the handler port, oldest first. Each entry is one chance of the foreground
  agent to move, by an operation or by a micro-step: an edge that comes before it, or a quiet slot in which none comes
  (assumption 4). -/
  handlerPort : List (Option EdgeEvent)
  /-- The model's own: the operation words the foreground agent will issue, in program order (assumption 3). -/
  foregroundPort : List OpWord
  /-- The model's own: the outcome tag of the most recent EDGE (40_edge_decoder R96; assumption 8). -/
  edgeOutcome : Option EdgeOutcome
  /-- The model's own: the response word of the most recent EDGE (30_encoding R64; assumption 8). -/
  handlerResponse : Option RespWord
  /-- The model's own: the response word of the foreground operation that ended last (30_encoding R64; assumption 8). -/
  response : Option RespWord
deriving DecidableEq, Repr

/-- The reset value of a slot: every field 0 (10_state R19, R29). -/
def MessageRecord.zero : MessageRecord := { gapTime := 0, lenTime := 0, cmd := 0, adr := 0 }

/-- The reset value of the message store (10_state R19, R29). -/
def Store.zero : Store := Vector.replicate 4 MessageRecord.zero

/-- The block after power-on (10_state R29; 70_reset_and_hazards R180): every value is the spec's. No TRYPOP is in
progress, nothing stands at a port and no operation has answered yet (DESIGN CHOICE, assumption 17: safe). -/
def State.reset : State where
  lastLevelIndex := .gap
  lastHalfBitTime := 0
  lastFlipTime := 0
  lastErrorAtLevelIndex := 0
  requestTinyErrorLevel := false
  lastMsgTime := 0
  recvMsgTime := 0
  cursor := 0
  slot := Store.zero
  enabled := false
  watchLine := 0
  call := .idle
  handlerPort := []
  foregroundPort := []
  edgeOutcome := none
  handlerResponse := none
  response := none

end Sys2Proof.Machine
end

