-- ==== Sys2Proof/Machine/Flags.lean ====
section
/-! DEFINITION. The one flag of the block, `requestTinyErrorLevel` (spec/10_state.md R15), and the tests on it.
The block has no carry, overflow or sign flag (spec/40_edge_decoder.md R97). -/

namespace Sys2Proof.Machine

/-- Set by every soft error (10_state R15; 40_edge_decoder R85). Every soft error arms it: reading L
(90_conflicts C3; assumption 11). -/
def State.armTinyError (s : State) : State := { s with requestTinyErrorLevel := true }

/-- Cleared on entry to the normal path (10_state R15; 40_edge_decoder R87). -/
def State.clearTinyError (s : State) : State := { s with requestTinyErrorLevel := false }

end Sys2Proof.Machine
end

