-- ==== Sys2Proof/Config.lean ====
section
/-! DEFINITION. What is fixed for the hardware and written by no operation (spec/10_state.md R27): the protocol
constants of spec/00_scope.md R5, under its names, and the host predicate `LINE_OK` of R6. -/

namespace Sys2Proof.Config

/-- `tickTime`, 600 microseconds (00_scope R5). -/
def tickTime : Nat := 600

/-- `startTime`, 2400 microseconds: the start bit's active duration (00_scope R5). -/
def startTime : Nat := 2400

/-- `zeroTime`, 600 microseconds: the active duration of a 0 bit (00_scope R5). -/
def zeroTime : Nat := 600

/-- `oneTime`, 1200 microseconds: the active duration of a 1 bit (00_scope R5). -/
def oneTime : Nat := 1200

/-- `cmdBits`, 7: the width of the command field (00_scope R5). -/
def cmdBits : Nat := 7

/-- `adrBits`, 5: the width of the address field (00_scope R5). -/
def adrBits : Nat := 5

/-- `maxRepeatGap`, 586 units of 128 microseconds (00_scope R5). -/
def maxRepeatGap : Nat := 586

/-- `IR_ON`: the logical level that is active, `false` (00_scope R5; 92_eei_decisions D28). -/
def irOn : Bool := false

/-- `LINE_OK(line)`: can the host platform deliver edge notifications for this line? A parameter of the model
(00_scope R6; 92_eei_decisions D19, left OPEN there): no body, so a claim holds whatever the platform answers.
DESIGN CHOICE (assumption 10): safe. -/
opaque lineOk : Byte → Bool

end Sys2Proof.Config
end

