-- ==== Sys2Proof/Machine/Operands.lean ====
section
/-! DEFINITION. The values an operation computes from its operands and the registers: time differences, widths,
the expected level, the timing windows, the bit values (spec/00_scope.md R5, R7; spec/30_encoding.md R66;
spec/40_edge_decoder.md R83, R88 to R91, R97). -/

namespace Sys2Proof.Machine

/-- `sub32(a, b) = (a - b) mod 2^32` (00_scope R7; 40_edge_decoder R97 (a)). -/
def sub32 (a b : Time) : Time := a - b

/-- `sat16(v)`: `v` if it fits 16 bits, else 0xFFFF (00_scope R7). -/
def sat16 (v : Time) : Half := if v.toNat ≤ 0xFFFF then v.setWidth 16 else 0xFFFF

/-- `low16(v) = v mod 2^16` (00_scope R7). -/
def low16 (v : Time) : Half := v.setWidth 16

/-- `gapTime` of a message that begins at `timestamp`: the shifted, saturated time since the last valid message's
last edge (40_edge_decoder R88). -/
def gapUnits (timestamp lastMsgTime : Time) : Half := sat16 (sub32 timestamp lastMsgTime >>> 7)

/-- The number of a level index: `GAP` is 0xFF (30_encoding R66; 92_eei_decisions D4). -/
def LevelIndex.toByte : LevelIndex → Byte
  | .gap => 0xFF
  | .half i => BitVec.ofNat 8 i.val

/-- `expected(idx)`: the level an edge must bring the line to (40_edge_decoder R83). -/
def expectedLevel : LevelIndex → Bool
  | .gap => Config.irOn
  | .half i => if i.val % 2 = 1 then Config.irOn else !Config.irOn

/-- How a duration lies to a timing window whose bounds are inclusive (40_edge_decoder R97 (b)). -/
inductive WindowTest where
  | under
  | within
  | over
deriving DecidableEq, Repr

/-- The test of duration `d` against the window from `lo` to `hi`, both inclusive (40_edge_decoder R89 to R91). -/
def windowTest (lo hi : Nat) (d : Time) : WindowTest :=
  if d.toNat < lo then .under else if hi < d.toNat then .over else .within

/-- The window of the start bit's active half, 1800 to 3000 (40_edge_decoder R89). -/
def startWindow : Time → WindowTest :=
  windowTest (Config.startTime - Config.tickTime) (Config.startTime + Config.tickTime)

/-- The window of an inactive half, 300 to 900 (40_edge_decoder R90). -/
def inactiveWindow : Time → WindowTest :=
  windowTest (Config.tickTime / 2) (Config.tickTime * 3 / 2)

/-- The window of a data bit's active half, 300 to 1500 (40_edge_decoder R91). -/
def dataWindow : Time → WindowTest :=
  windowTest (Config.zeroTime / 2) (Config.oneTime + Config.tickTime / 2)

/-- The bit an active half of duration `d` carries: 0 below 900 microseconds, else 1 (40_edge_decoder R91). -/
def bitValue (d : Time) : Bool := !decide (d.toNat < (Config.zeroTime + Config.oneTime) / 2)

/-- `bitIndex = (i >> 1) - 1` of the active half `i >= 2` (40_edge_decoder R91; 30_encoding R66). -/
def bitIndex (i : Fin 25) : Nat := i.val / 2 - 1

/-- The index of the last data bit, `cmdBits + adrBits - 1 = 11` (40_edge_decoder R94). -/
def lastBitIndex : Nat := Config.cmdBits + Config.adrBits - 1

/-- The level index after half-bit `i`. No rule advances past 24 (40_edge_decoder R97 (f)); the value the type
needs there is `GAP` and is never used (assumption 1). -/
def nextIndex (i : Fin 25) : LevelIndex :=
  if h : i.val + 1 < 25 then .half ⟨i.val + 1, h⟩ else .gap

/-- The slot of the most recently completed record, `(c + 3) mod 4` (41_message_reader R122; 10_state R24). -/
def currentSlot (c : SlotIndex) : SlotIndex := c + 3

/-- The slot of the record completed before it, `(c + 2) mod 4` (41_message_reader R122; 10_state R24). -/
def previousSlot (c : SlotIndex) : SlotIndex := c + 2

end Sys2Proof.Machine
end

