-- ==== Sys2Proof/Machine/Ops.lean ====
section
/-! DEFINITION. The operations over the message store, the registers and the responses that the meanings share
(spec/20_memory.md R41; spec/30_encoding.md R64, R65, R67; spec/40_edge_decoder.md R85, R86, R95). The block takes
no exception and returns from none (spec/60_exceptions.md R160, R167, R168): the two error effects, R85 and R86,
stand in that place. -/

namespace Sys2Proof.Machine

/-- The record in slot `i` (10_state R19). -/
def Store.record (m : Store) (i : SlotIndex) : MessageRecord := m[i.toFin]

/-- The store with record `r` in slot `i` (10_state R19). -/
def Store.setRecord (m : Store) (i : SlotIndex) (r : MessageRecord) : Store := m.set i.toFin r

/-- Field `f` of a record (10_state R19). -/
def MessageRecord.get {w : Nat} (r : MessageRecord) : SlotField w → BitVec w
  | .gapTime => r.gapTime
  | .lenTime => r.lenTime
  | .cmd => r.cmd
  | .adr => r.adr

/-- The record with field `f` set (10_state R19). -/
def MessageRecord.put {w : Nat} (r : MessageRecord) : SlotField w → BitVec w → MessageRecord
  | .gapTime, v => { r with gapTime := v }
  | .lenTime, v => { r with lenTime := v }
  | .cmd, v => { r with cmd := v }
  | .adr, v => { r with adr := v }

/-- `MemRead(i, f)` (20_memory R41). -/
def memRead {w : Nat} (m : Store) (i : SlotIndex) (f : SlotField w) : BitVec w := (m.record i).get f

/-- `MemWrite(i, f, v)` (20_memory R41). -/
def memWrite {w : Nat} (m : Store) (i : SlotIndex) (f : SlotField w) (v : BitVec w) : Store :=
  m.setRecord i ((m.record i).put f v)

/-- The store is in its one form: a record uses 7 bits of `cmd` and 5 bits of `adr`, the unused ones being 0
(10_state R22, R23, R28 item 3). There is one cell for each of the sixteen locations, so two stores that read alike
everywhere are equal (assumption 2). -/
def Store.wf (m : Store) : Bool :=
  ([0, 1, 2, 3] : List SlotIndex).all fun i =>
    decide ((m.record i).cmd.toNat ≤ 0x7F) && decide ((m.record i).adr.toNat ≤ 0x1F)

/-- `MemWrite` on the message store of a state. -/
def State.write {w : Nat} (s : State) (i : SlotIndex) (f : SlotField w) (v : BitVec w) : State :=
  { s with slot := memWrite s.slot i f v }

/-- The soft-error effect: arm the flag and record the flip time, nothing else (40_edge_decoder R85). -/
def State.softError (s : State) (timestamp : Time) : State :=
  { s.armTinyError with lastFlipTime := timestamp }

/-- The hard-error effect: record the old level index, return to `GAP`, record the flip time, nothing else
(40_edge_decoder R86). -/
def State.hardError (s : State) (timestamp : Time) : State :=
  { s with
    lastErrorAtLevelIndex := s.lastLevelIndex.toByte
    lastLevelIndex := .gap
    lastFlipTime := timestamp }

/-- The time update of a path that did not return early (40_edge_decoder R95). -/
def State.updateTimes (s : State) (timestamp : Time) : State :=
  { s with lastHalfBitTime := timestamp, lastFlipTime := timestamp }

/-- The packed record `gapTime, lenTime, cmd, adr` (30_encoding R65). -/
def packRecord (m : MessageRecord) : BitVec 48 := m.gapTime ++ m.lenTime ++ m.cmd ++ m.adr

/-- The response word of a delivered message: `valid` and the record (30_encoding R64). -/
def respMessage (m : MessageRecord) : RespWord := (0b01 : BitVec 2) ++ packRecord m

/-- The response word of `empty`, and of an operation without a result: 0 (30_encoding R64). -/
def respZero : RespWord := 0

/-- The response word of a `bool` result, in `Q[0]` (30_encoding R64). -/
def respBool (b : Bool) : RespWord := (BitVec.ofBool b).setWidth 50

/-- The response word of a `u8` result, in `Q[7:0]` (30_encoding R64). -/
def respByte (b : Byte) : RespWord := b.setWidth 50

/-- The response word of an illegal or reserved word: `illegal`, every other bit 0 (30_encoding R64, R67). -/
def respIllegal : RespWord := 0x2000000000000

/-- An EDGE operation ends: its outcome tag, and its response word, which is 0 (40_edge_decoder R96; 30_encoding R64). -/
def State.endEdge (s : State) (tag : EdgeOutcome) : State :=
  { s with edgeOutcome := some tag, handlerResponse := some respZero }

/-- A foreground operation ends with response word `q` (30_encoding R64). -/
def State.answer (s : State) (q : RespWord) : State := { s with response := some q }

/-- An illegal or reserved word: no state change, the response `illegal` (30_encoding R67). -/
def rejectWord (s : State) : State := s.answer respIllegal

/-- The foreground agent performs one operation at a time (20_memory R48 item 2; 70_reset_and_hazards R188): an
operation of its own has its effect when no TRYPOP is in progress, and no meaning otherwise (60_exceptions R172;
93_implementation_defined U5). -/
def foreground (effect : State → State) (s : State) : Host.Outcome State Fault Refusal :=
  if s.call = .idle then .next (effect s) else .refused .foregroundBusy

end Sys2Proof.Machine
end

