-- ==== Sys2Proof/Machine/Edge.lean ====
section
/-! DEFINITION. EDGE, the protocol state machine (spec/40_edge_decoder.md), one definition for each rule. -/

namespace Sys2Proof.Machine

/-- `raise SoftError` (40_edge_decoder R81, R85). -/
def raiseSoft (timestamp : Time) (s : State) : State := (s.softError timestamp).endEdge .softError

/-- `raise HardError` (40_edge_decoder R81, R86). -/
def raiseHard (timestamp : Time) (s : State) : State := (s.hardError timestamp).endEdge .hardError

/-- The unexpected-level test: soft if the last edge is less than half a tick ago and the flag is clear, else hard
(40_edge_decoder R84). -/
def edgeUnexpected (timestamp : Time) (s : State) : State :=
  if (sub32 timestamp s.lastFlipTime).toNat < Config.tickTime / 2 ∧ s.requestTinyErrorLevel = false then
    raiseSoft timestamp s
  else
    raiseHard timestamp s

/-- A success path ends with the time update (40_edge_decoder R95, R96). -/
def edgeSuccess (timestamp : Time) (tag : EdgeOutcome) (s : State) : State :=
  (s.updateTimes timestamp).endEdge tag

/-- The half-bit is complete and the next one is in progress (40_edge_decoder R89, R90, R93). -/
def edgeAdvance (timestamp : Time) (next : LevelIndex) (s : State) : State :=
  edgeSuccess timestamp .continues { s with lastLevelIndex := next }

/-- `GAP` to index 0: a message begins in `slot[cursor]` (40_edge_decoder R88). -/
def edgeBegin (timestamp : Time) (s : State) : State :=
  let c := s.cursor
  let s := s.write c .gapTime (gapUnits timestamp s.lastMsgTime)
  let s := s.write c .lenTime 0
  let s := s.write c .cmd 0
  let s := s.write c .adr 0
  edgeSuccess timestamp .continues { s with recvMsgTime := timestamp, lastLevelIndex := .half 0 }

/-- Index 0: the end of the start bit's active half (40_edge_decoder R89). -/
def edgeStartBit (timestamp d : Time) (s : State) : State :=
  match startWindow d with
  | .under => raiseSoft timestamp s
  | .over => raiseHard timestamp s
  | .within => edgeAdvance timestamp (.half 1) s

/-- An odd index: the end of an inactive half (40_edge_decoder R90). -/
def edgeInactiveHalf (timestamp d : Time) (i : Fin 25) (s : State) : State :=
  match inactiveWindow d with
  | .under => raiseSoft timestamp s
  | .over => raiseHard timestamp s
  | .within => edgeAdvance timestamp (nextIndex i) s

/-- Bit packing: OR data bit `k` into `cmd`, or into `adr` from bit 7 on (40_edge_decoder R92). -/
def packBit (k : Nat) (bit : Bool) (s : State) : State :=
  let c := s.cursor
  let b : Byte := (BitVec.ofBool bit).setWidth 8
  if k < Config.cmdBits then
    s.write c .cmd (memRead s.slot c .cmd ||| (b <<< k))
  else
    s.write c .adr (memRead s.slot c .adr ||| (b <<< (k - Config.cmdBits)))

/-- The final bit: the record is committed, the cursor advances, the decoder returns to `GAP` (40_edge_decoder R94).
By 20_memory R49 the order of the writes is not observable. -/
def edgeCommit (timestamp : Time) (s : State) : State :=
  let c := s.cursor
  let s := s.write c .lenTime (low16 (sub32 timestamp s.recvMsgTime))
  edgeSuccess timestamp .messageCommitted
    { s with lastMsgTime := timestamp, cursor := c + 1, lastLevelIndex := .gap }

/-- An even index from 2 on: the end of a data bit's active half (40_edge_decoder R91 to R94). -/
def edgeDataBit (timestamp d : Time) (i : Fin 25) (s : State) : State :=
  match dataWindow d with
  | .under => raiseSoft timestamp s
  | .over => raiseHard timestamp s
  | .within =>
    let s := packBit (bitIndex i) (bitValue d) s
    if bitIndex i = lastBitIndex then edgeCommit timestamp s else edgeAdvance timestamp (nextIndex i) s

/-- The normal path: clear the flag, measure the half-bit, dispatch on the level index (40_edge_decoder R87). -/
def edgeNormal (timestamp : Time) (s : State) : State :=
  let d := sub32 timestamp s.lastHalfBitTime
  let s := s.clearTinyError
  match s.lastLevelIndex with
  | .gap => edgeBegin timestamp s
  | .half i =>
    if i.val = 0 then edgeStartBit timestamp d s
    else if i.val % 2 = 1 then edgeInactiveHalf timestamp d i s
    else edgeDataBit timestamp d i s

/-- The order of evaluation of a delivered edge: idle filter, unexpected-level test, normal path
(40_edge_decoder R81, R82, R84, R87). -/
def edgeDelivered (timestamp : Time) (level : Bool) (s : State) : State :=
  if s.lastLevelIndex = .gap ∧ level ≠ Config.irOn then s.endEdge .ignored
  else if level ≠ expectedLevel s.lastLevelIndex then edgeUnexpected timestamp s
  else edgeNormal timestamp s

/-- EDGE: an edge that arrives while `enabled` is false is dropped by the gate (42_lifecycle_diag R144); any other
is delivered (40_edge_decoder R80, R81). EDGE is atomic and always runs to completion (20_memory R48 item 1). -/
def execEdge (timestamp : Time) (level : Bool) (s : State) : Host.Outcome State Fault Refusal :=
  .next (if s.enabled then edgeDelivered timestamp level s else s.endEdge .ignored)

end Sys2Proof.Machine
end

