-- ==== Sys2Proof/Machine/Lifecycle.lean ====
section
/-! DEFINITION. INIT, START, STOP and ERRIDX (spec/42_lifecycle_diag.md). Each is atomic (spec/20_memory.md R48
item 4). -/

namespace Sys2Proof.Machine

/-- The reset of the decoder registers and the message store; `enabled` and `watchLine` stay (42_lifecycle_diag R140). -/
def resetDecoder (s : State) : State :=
  { s with
    lastLevelIndex := .gap
    lastHalfBitTime := 0
    lastFlipTime := 0
    lastMsgTime := 0
    recvMsgTime := 0
    lastErrorAtLevelIndex := 0
    requestTinyErrorLevel := false
    cursor := 0
    slot := Store.zero }

/-- START's writes, when the platform accepts the line (42_lifecycle_diag R141). -/
def startLine (line : Byte) (ok : Bool) (s : State) : State :=
  { s with enabled := ok || s.enabled, watchLine := if ok then line else s.watchLine }

/-- STOP's write, when the platform accepts the line; `watchLine` is not compared (42_lifecycle_diag R142). -/
def stopLine (ok : Bool) (s : State) : State :=
  { s with enabled := !ok && s.enabled }

/-- INIT (42_lifecycle_diag R140). -/
def execInit (s : State) : Host.Outcome State Fault Refusal :=
  foreground (fun s => (resetDecoder s).answer respZero) s

/-- START `line` (42_lifecycle_diag R141). -/
def execStart (line : Byte) (s : State) : Host.Outcome State Fault Refusal :=
  foreground (fun s => (startLine line (Config.lineOk line) s).answer (respBool (Config.lineOk line))) s

/-- STOP `line` (42_lifecycle_diag R142). -/
def execStop (line : Byte) (s : State) : Host.Outcome State Fault Refusal :=
  foreground (fun s => (stopLine (Config.lineOk line) s).answer (respBool (Config.lineOk line))) s

/-- ERRIDX: reads the diagnostic register, and does not clear it (42_lifecycle_diag R143). -/
def execErrIdx (s : State) : Host.Outcome State Fault Refusal :=
  foreground (fun s => s.answer (respByte s.lastErrorAtLevelIndex)) s

end Sys2Proof.Machine
end

