-- ==== Sys2Proof/Machine/Reserved.lean ====
section
/-! DEFINITION. The reserved operation numbers and the illegal words (spec/30_encoding.md R67): no state change,
the response `illegal`, and the next operation proceeds normally. -/

namespace Sys2Proof.Machine

/-- The reserved operation number 6, whatever stands below it (30_encoding R67). -/
def execReserved6 (_payload : BitVec 33) (s : State) : Host.Outcome State Fault Refusal :=
  foreground rejectWord s

/-- The reserved operation number 7, whatever stands below it (30_encoding R67). -/
def execReserved7 (_payload : BitVec 33) (s : State) : Host.Outcome State Fault Refusal :=
  foreground rejectWord s

/-- A word the decoder rejects (30_encoding R67). It is a word of the foreground port: every word of the handler
port is legal (assumption 18). -/
def illegalWord (s : State) : Host.Outcome State Fault Refusal :=
  foreground rejectWord s

end Sys2Proof.Machine
end

