-- ==== Sys2Proof/Machine/TryPop.lean ====
section
/-! DEFINITION. TRYPOP, the repeat-consensus reader, as the six micro-steps of spec/41_message_reader.md R127, one
definition for each. -/

namespace Sys2Proof.Machine

/-- The call ends with a response word (41_message_reader R120). -/
def State.endCall (s : State) (q : RespWord) : State := { s with call := .idle, response := some q }

/-- Micro-step 1: the cursor snapshot, one atomic load (41_message_reader R121). -/
def takeSnapshot (s : State) : State := { s with call := .snapshot s.cursor }

/-- Micro-step 2: the empty check (41_message_reader R123). -/
def checkLen (c : SlotIndex) (s : State) : State :=
  let lenTime := memRead s.slot (currentSlot c) .lenTime
  if lenTime = 0 then s.endCall respZero else { s with call := .lenRead c lenTime }

/-- Micro-step 3: the first-press check (41_message_reader R124). -/
def checkGap (c : SlotIndex) (lenTime : Half) (s : State) : State :=
  let gapTime := memRead s.slot (currentSlot c) .gapTime
  if Config.maxRepeatGap < gapTime.toNat then s.endCall respZero
  else { s with call := .gapRead c lenTime gapTime }

/-- Micro-step 4: the mismatch check, four reads in one atomic micro-step (41_message_reader R125, R127;
assumption 6). -/
def checkMatch (c : SlotIndex) (lenTime gapTime : Half) (s : State) : State :=
  let adr := memRead s.slot (currentSlot c) .adr
  let cmd := memRead s.slot (currentSlot c) .cmd
  if adr ≠ memRead s.slot (previousSlot c) .adr ∨ cmd ≠ memRead s.slot (previousSlot c) .cmd then
    s.endCall respZero
  else { s with call := .matched c lenTime gapTime cmd adr }

/-- Micro-step 5: the copy, of the values already read (41_message_reader R126, R127). -/
def makeCopy (c : SlotIndex) (lenTime gapTime : Half) (cmd adr : Byte) (s : State) : State :=
  { s with call := .copied c { gapTime := gapTime, lenTime := lenTime, cmd := cmd, adr := adr } }

/-- Micro-step 6: mark the record consumed and return the copy (41_message_reader R126). -/
def deliver (c : SlotIndex) (m : MessageRecord) (s : State) : State :=
  (s.write (currentSlot c) .lenTime 0).endCall (respMessage m)

/-- The next micro-step of the call in progress; without a call, nothing (41_message_reader R127). -/
def microStep (s : State) : State :=
  match s.call with
  | .idle => s
  | .snapshot c => checkLen c s
  | .lenRead c lenTime => checkGap c lenTime s
  | .gapRead c lenTime gapTime => checkMatch c lenTime gapTime s
  | .matched c lenTime gapTime cmd adr => makeCopy c lenTime gapTime cmd adr s
  | .copied c m => deliver c m s

/-- TRYPOP: micro-step 1, the cursor snapshot. Each of the other micro-steps is a step of its own, `microStep`
(00_scope R9; 41_message_reader R120, R121, R127; assumption 5). -/
def execTryPop (s : State) : Host.Outcome State Fault Refusal :=
  foreground takeSnapshot s

end Sys2Proof.Machine
end

