-- ==== Sys2Proof/Syntax.lean ====
section
/-! DEFINITION. The operations of the block, one constructor for each row of spec/opcode_table.json
(spec/30_encoding.md R60, R62, R67). -/

namespace Sys2Proof

/-- An operation of the block. The operand types are the operands' own widths, so that no operand of an
operation can be out of range (30_encoding R60, R63). -/
inductive Instr where
  /-- EDGE `timestamp` `level`: one edge of the monitored line, `level` its new logical level (40_edge_decoder R80). -/
  | edge (timestamp : Time) (level : Bool)
  /-- TRYPOP: the repeat-consensus read (41_message_reader R120). -/
  | tryPop
  /-- INIT: reset the decoder and the message store (42_lifecycle_diag R140). -/
  | init
  /-- START `line`: enable edge notifications for a line (42_lifecycle_diag R141). -/
  | start (line : Byte)
  /-- STOP `line`: disable edge notifications (42_lifecycle_diag R142). -/
  | stop (line : Byte)
  /-- ERRIDX: the level index of the last hard error (42_lifecycle_diag R143). -/
  | errIdx
  /-- The reserved operation number 6 with the 33 bits that stand below it (30_encoding R67). Carrying them is a
  DESIGN CHOICE (assumption 12): safe. -/
  | reserved6 (payload : BitVec 33)
  /-- The reserved operation number 7 with the 33 bits that stand below it (30_encoding R67). -/
  | reserved7 (payload : BitVec 33)
deriving DecidableEq, Repr

end Sys2Proof
end

