-- ==== Sys2Proof/Machine/Dispatch.lean ====
section
/-! DEFINITION. One arm for each operation, each a direct call of its meaning. -/

namespace Sys2Proof.Machine

def exec (i : Instr) (s : State) : Host.Outcome State Fault Refusal :=
  match i with
  | .edge timestamp level => Sys2Proof.Machine.execEdge timestamp level s
  | .tryPop => Sys2Proof.Machine.execTryPop s
  | .init => Sys2Proof.Machine.execInit s
  | .start line => Sys2Proof.Machine.execStart line s
  | .stop line => Sys2Proof.Machine.execStop line s
  | .errIdx => Sys2Proof.Machine.execErrIdx s
  | .reserved6 payload => Sys2Proof.Machine.execReserved6 payload s
  | .reserved7 payload => Sys2Proof.Machine.execReserved7 payload s

end Sys2Proof.Machine
end

