-- ==== Sys2Proof/WellFormed.lean ====
section
/-! DEFINITION. Which operation words and which operations are well formed (spec/30_encoding.md R61, R62, R67).
The operands of an `Instr` are in range by their types; what is left to check is that a row is one of the six
operations, and that the must-be-zero bits of a word are zero. -/

namespace Sys2Proof

/-- One of the six operations of 30_encoding R60; the two reserved rows are not (R67). -/
def Instr.wellFormed : Instr → Bool
  | .edge _ _ => true
  | .tryPop => true
  | .init => true
  | .start _ => true
  | .stop _ => true
  | .errIdx => true
  | .reserved6 _ => false
  | .reserved7 _ => false

/-- The word keeps the must-be-zero bits of its format: `W[32:8]` in format L (`op` 3 and 4), `W[32:0]` in format N
(`op` 1, 2 and 5). Every EDGE word is legal; the operation numbers 6 and 7 are reserved (30_encoding R67). -/
def wordLegal (w : OpWord) : Bool :=
  match (w.extractLsb' 33 3).toNat with
  | 0 => true
  | 1 => w.extractLsb' 0 33 == 0
  | 2 => w.extractLsb' 0 33 == 0
  | 3 => w.extractLsb' 8 25 == 0
  | 4 => w.extractLsb' 8 25 == 0
  | 5 => w.extractLsb' 0 33 == 0
  | _ => false

end Sys2Proof
end

