-- ==== Sys2Proof/Decode.lean ====
section
/-! DEFINITION. The operation word (spec/30_encoding.md R61 to R63, R67): the decoder, total on every 36-bit word,
and the encoder, written from the same format tables. -/

namespace Sys2Proof

/-- Why a word is no operation, by name (30_encoding R67). -/
inductive DecodeError where
  /-- A format L word (START, STOP) with a non-zero bit in `W[32:8]`. -/
  | formatLNotZero
  /-- A format N word (TRYPOP, INIT, ERRIDX) with a non-zero bit in `W[32:0]`. -/
  | formatNNotZero
deriving DecidableEq, Repr

/-- `op = W[35:33]` (30_encoding R61). -/
def opField (w : OpWord) : BitVec 3 := w.extractLsb' 33 3

/-- `level = W[32]` (30_encoding R63). -/
def levelField (w : OpWord) : Bool := w.getLsbD 32

/-- `timestamp = W[31:0]` (30_encoding R63). -/
def timestampField (w : OpWord) : Time := w.extractLsb' 0 32

/-- `line = W[7:0]` (30_encoding R63). -/
def lineField (w : OpWord) : Byte := w.extractLsb' 0 8

/-- `W[32:8]`, which format L wants zero (30_encoding R61). -/
def zeroFieldL (w : OpWord) : BitVec 25 := w.extractLsb' 8 25

/-- `W[32:0]`: what format N wants zero, and the bits below a reserved operation number (30_encoding R61, R67). -/
def lowField (w : OpWord) : BitVec 33 := w.extractLsb' 0 33

/-- A format N word is operation `i` if its low bits are zero (30_encoding R61, R67). -/
def decodeFormatN (w : OpWord) (i : Instr) : Except DecodeError Instr :=
  if lowField w = 0 then .ok i else .error .formatNNotZero

/-- A format L word is operation `i` if `W[32:8]` is zero (30_encoding R61, R67). -/
def decodeFormatL (w : OpWord) (i : Instr) : Except DecodeError Instr :=
  if zeroFieldL w = 0 then .ok i else .error .formatLNotZero

/-- The decoder: the operation number selects the row (30_encoding R62, R67). -/
def decode (w : OpWord) : Except DecodeError Instr :=
  match (opField w).toNat with
  | 0 => .ok (.edge (timestampField w) (levelField w))
  | 1 => decodeFormatN w .tryPop
  | 2 => decodeFormatN w .init
  | 3 => decodeFormatL w (.start (lineField w))
  | 4 => decodeFormatL w (.stop (lineField w))
  | 5 => decodeFormatN w .errIdx
  | 6 => .ok (.reserved6 (lowField w))
  | _ => .ok (.reserved7 (lowField w))

/-- Format E: `op`, `level`, `timestamp` (30_encoding R61). -/
def formatE (op : BitVec 3) (level : Bool) (timestamp : Time) : OpWord :=
  op ++ BitVec.ofBool level ++ timestamp

/-- Format L: `op`, 25 zero bits, `line` (30_encoding R61). -/
def formatL (op : BitVec 3) (line : Byte) : OpWord :=
  op ++ (0 : BitVec 25) ++ line

/-- Format N and the reserved rows: `op` and 33 bits, which format N wants zero (30_encoding R61, R67). -/
def formatN (op : BitVec 3) (low : BitVec 33) : OpWord :=
  op ++ low

/-- The encoder: the word of an operation (30_encoding R61, R62). -/
def encode : Instr → OpWord
  | .edge timestamp level => formatE 0 level timestamp
  | .tryPop => formatN 1 0
  | .init => formatN 2 0
  | .start line => formatL 3 line
  | .stop line => formatL 4 line
  | .errIdx => formatN 5 0
  | .reserved6 payload => formatN 6 payload
  | .reserved7 payload => formatN 7 payload

/-- The row's mask in the opcode table (30_encoding R62; the reserved rows of opcode_table.json). -/
def Instr.rowMask : Instr → OpWord
  | .edge _ _ => 0xE00000000
  | .tryPop => 0xFFFFFFFFF
  | .init => 0xFFFFFFFFF
  | .start _ => 0xFFFFFFF00
  | .stop _ => 0xFFFFFFF00
  | .errIdx => 0xFFFFFFFFF
  | .reserved6 _ => 0xE00000000
  | .reserved7 _ => 0xE00000000

/-- The row's match in the opcode table (30_encoding R62; the reserved rows of opcode_table.json). -/
def Instr.rowMatch : Instr → OpWord
  | .edge _ _ => 0x000000000
  | .tryPop => 0x200000000
  | .init => 0x400000000
  | .start _ => 0x600000000
  | .stop _ => 0x800000000
  | .errIdx => 0xA00000000
  | .reserved6 _ => 0xC00000000
  | .reserved7 _ => 0xE00000000

/-- The operation the decoder reads from an opcode-table word of `nbits` bits, every bit above them zero. An
operation is one 36-bit word (30_encoding R61), so a number with a bit above bit 35 is no operation word
(DESIGN CHOICE, assumption 14: safe). -/
def decodeTableWord (nbits w : Nat) : Option Instr :=
  if w % 2 ^ nbits < 2 ^ 36 then (decode (BitVec.ofNat 36 (w % 2 ^ nbits))).toOption else none

end Sys2Proof
end

