-- ==== Sys2Proof/Machine/Ports.lean ====
section
/-! DEFINITION. The two ports (spec/92_eei_decisions.md D1; spec/30_encoding.md R61): which operation word is the
next to run, and the state after it is taken. -/

namespace Sys2Proof.Machine

/-- The format E word of an edge event (30_encoding R61, R63). -/
def edgeWord (e : EdgeEvent) : OpWord := formatE 0 e.level e.timestamp

/-- The foreground agent's turn: while its TRYPOP is in progress it issues nothing; otherwise it issues its next
word, if it has one (20_memory R48 item 2). -/
def fetchForeground (s : State) : Option OpWord × State :=
  if s.call = .idle then
    match s.foregroundPort with
    | w :: rest => (some w, { s with foregroundPort := rest })
    | [] => (none, s)
  else (none, s)

/-- The next word to run. An edge that stands at the handler port comes first, also when it coincides with the
start of a foreground operation (60_exceptions R166); a quiet slot passes and the foreground agent has its turn. -/
def fetch (s : State) : Option OpWord × State :=
  match s.handlerPort with
  | some e :: rest => (some (edgeWord e), { s with handlerPort := rest })
  | none :: rest => fetchForeground { s with handlerPort := rest }
  | [] => fetchForeground s

end Sys2Proof.Machine
end

