-- ==== Sys2Proof/Machine/Step.lean ====
section
/-! DEFINITION. One step of the block (spec/00_scope.md R9): the next operation at the ports, or one micro-step of the
TRYPOP in progress, or nothing when the block is idle (assumptions 3, 4, 5). -/

namespace Sys2Proof.Machine

/-- A word runs: the operation it decodes to, or the effect of an illegal word (30_encoding R62, R67). -/
def runWord (w : OpWord) (s : State) : Host.Outcome State Fault Refusal :=
  match decode w with
  | .ok i => exec i s
  | .error _ => illegalWord s

/-- One step: a whole EDGE, INIT, START, STOP or ERRIDX, or one micro-step of a TRYPOP (00_scope R9). The foreground
agent that moves without a new operation goes on with its call; without a call the block is idle and holds its state
(60_exceptions R174). -/
def step (s : State) : Host.Outcome State Fault Refusal :=
  match fetch s with
  | (some w, t) => runWord w t
  | (none, t) => .next (microStep t)

/-- `s` with an operation word where the next step takes its operation from. An EDGE word is an edge at the handler
port. Any other word stands first at the foreground port, behind a quiet slot and with no TRYPOP in progress, so that
the foreground agent moves next and issues it (assumption 3). -/
def State.withFetchWord (s : State) (nbits w : Nat) : State :=
  let word := BitVec.ofNat 36 (w % 2 ^ nbits)
  if opField word = 0 then
    { s with handlerPort := some ⟨timestampField word, levelField word⟩ :: s.handlerPort }
  else
    { s with handlerPort := none :: s.handlerPort, foregroundPort := word :: s.foregroundPort, call := .idle }

end Sys2Proof.Machine
end

