-- ==== Sys2Proof/Machine/Frame.lean ====
section
/-! DEFINITION. A frame as it arrives on the line (spec/30_encoding.md R69) and the pseudo-operation FRAME (R71):
lists of edge events, which the handler port carries. No operation uses them: they say what a sender does. -/

namespace Sys2Proof.Machine

/-- Edges of strictly alternating level from `timestamp` on, the durations between them given; timestamps are
reduced modulo 2^32 (30_encoding R69, R71). -/
def edgeTrain (timestamp : Time) (level : Bool) : List Time → List EdgeEvent
  | [] => [⟨timestamp, level⟩]
  | d :: ds => ⟨timestamp, level⟩ :: edgeTrain (timestamp + d) (!level) ds

/-- The durations of a frame: the start bit's active half, then for each data bit the inactive half before it and
its own active half: 25 timed half-bits for 12 bits (30_encoding R69). -/
def frameDurations (startActive : Time) (bits : List (Time × Time)) : List Time :=
  startActive :: bits.flatMap fun b => [b.1, b.2]

/-- The edges of a frame: the first is to the active level (30_encoding R69). -/
def frameEdges (t0 startActive : Time) (bits : List (Time × Time)) : List EdgeEvent :=
  edgeTrain t0 Config.irOn (frameDurations startActive bits)

/-- The twelve data bits in the order they are sent: `cmd` first, each least significant bit first (30_encoding R69). -/
def frameBits (cmd : BitVec 7) (adr : BitVec 5) : List Bool :=
  (List.range 7).map cmd.getLsbD ++ (List.range 5).map adr.getLsbD

/-- A data bit's nominal halves: 600 inactive, then 1200 active for a 1 and 600 for a 0 (30_encoding R71). -/
def nominalHalves (bit : Bool) : Time × Time :=
  (BitVec.ofNat 32 Config.tickTime, BitVec.ofNat 32 (if bit then Config.oneTime else Config.zeroTime))

/-- `FRAME t0 cmd adr`: the 26 edges of a nominally timed frame (30_encoding R71). -/
def frame (t0 : Time) (cmd : BitVec 7) (adr : BitVec 5) : List EdgeEvent :=
  frameEdges t0 (BitVec.ofNat 32 Config.startTime) ((frameBits cmd adr).map nominalHalves)

end Sys2Proof.Machine
end

