-- ==== Sys2Proof/Safety.lean ====
section
/-! DEFINITION. The terms in which claims about runs are made: the invariant of the block (spec/10_state.md R28,
with what makes it inductive), runs of edges, the interleavings of a TRYPOP (spec/41_message_reader.md R127), and the
number of commits among edges (spec/20_memory.md R53). -/

namespace Sys2Proof.Machine

/-- The least time from the first edge of a message to the start of its half-bit `i`: 1800, then 300 for each half-bit
(40_edge_decoder R104). -/
def minElapsed (i : Nat) : Nat := if i = 0 then 0 else 1800 + 300 * (i - 1)

/-- The greatest time from the first edge of a message to the start of its half-bit `i`: 3000, then 900 for each
inactive half and 1500 for each active one (40_edge_decoder R104). -/
def maxElapsed (i : Nat) : Nat := if i = 0 then 0 else 3000 + 900 * (i / 2) + 1500 * ((i - 1) / 2)

/-- A `lenTime` that a commit can write (10_state R28 item 6; 40_edge_decoder R104). -/
def LenInRange (v : Half) : Prop := 9000 ≤ v.toNat ∧ v.toNat ≤ 31800

/-- What the copies of a TRYPOP in progress satisfy, as far as it has read (41_message_reader R123, R124; 10_state R28). -/
def CallOk : TryPopCall → Prop
  | .idle => True
  | .snapshot _ => True
  | .lenRead _ lenTime => LenInRange lenTime
  | .gapRead _ lenTime gapTime => LenInRange lenTime ∧ gapTime.toNat ≤ 586
  | .matched _ lenTime gapTime cmd adr =>
    LenInRange lenTime ∧ gapTime.toNat ≤ 586 ∧ cmd.toNat ≤ 0x7F ∧ adr.toNat ≤ 0x1F
  | .copied _ m => LenInRange m.lenTime ∧ m.gapTime.toNat ≤ 586 ∧ m.cmd.toNat ≤ 0x7F ∧ m.adr.toNat ≤ 0x1F

/-- The invariant of the block. -/
structure Inv (s : State) : Prop where
  /-- Every record uses 7 bits of `cmd` and 5 of `adr` (10_state R28 item 3). -/
  store_wf : s.slot.wf = true
  /-- With the flag clear in mid-message, the last edge was a success (10_state R28 item 4). -/
  flip_eq_half : s.requestTinyErrorLevel = false → s.lastLevelIndex ≠ .gap → s.lastFlipTime = s.lastHalfBitTime
  /-- The record in progress holds no data (10_state R28 item 5). -/
  in_progress_empty : s.lastLevelIndex ≠ .gap → memRead s.slot s.cursor .lenTime = 0
  /-- A record with data has a duration a frame can have (10_state R28 item 6). -/
  len_in_range : ∀ j, memRead s.slot j .lenTime ≠ 0 → LenInRange (memRead s.slot j .lenTime)
  /-- The time from the message's first edge to the last boundary lies within the sum of the windows passed
  (40_edge_decoder R104). -/
  elapsed : ∀ i, s.lastLevelIndex = .half i →
    minElapsed i.val ≤ (sub32 s.lastHalfBitTime s.recvMsgTime).toNat ∧
    (sub32 s.lastHalfBitTime s.recvMsgTime).toNat ≤ maxElapsed i.val
  /-- The diagnostic register holds 0 to 24 (10_state R14; 42_lifecycle_diag R143). -/
  error_index : s.lastErrorAtLevelIndex.toNat ≤ 24
  /-- The copies of the TRYPOP in progress are in range (41_message_reader R126). -/
  call_ok : CallOk s.call

/-- The edges of a list, one after another, each the operation EDGE. -/
def runEdges : List EdgeEvent → State → Host.Outcome State Fault Refusal
  | [], s => .next s
  | e :: es, s =>
    match exec (.edge e.timestamp e.level) s with
    | .next s' => runEdges es s'
    | .fault r => .fault r
    | .refused r => .refused r

/-- How many messages the edges of a list commit, run one after another from `s` (40_edge_decoder R94, R96). -/
def commitCount : List EdgeEvent → State → Nat
  | [], _ => 0
  | e :: es, s =>
    match exec (.edge e.timestamp e.level) s with
    | .next s' => (if s'.edgeOutcome = some .messageCommitted then 1 else 0) + commitCount es s'
    | .fault _ => 0
    | .refused _ => 0

/-- One move of the two agents while a TRYPOP is in progress: an edge, or a micro-step of the call (20_memory R48). -/
inductive Move where
  | edge (e : EdgeEvent)
  | micro
deriving DecidableEq, Repr

/-- The edges among some moves, in order. -/
def Move.edges : List Move → List EdgeEvent
  | [] => []
  | .edge e :: ms => e :: Move.edges ms
  | .micro :: ms => Move.edges ms

/-- How many micro-steps are among some moves. -/
def Move.micros : List Move → Nat
  | [] => 0
  | .edge _ :: ms => Move.micros ms
  | .micro :: ms => Move.micros ms + 1

/-- The moves, one after another (41_message_reader R127: edges may fall between any two micro-steps). -/
def runMoves : List Move → State → Host.Outcome State Fault Refusal
  | [], s => .next s
  | .edge e :: ms, s =>
    match exec (.edge e.timestamp e.level) s with
    | .next s' => runMoves ms s'
    | .fault r => .fault r
    | .refused r => .refused r
  | .micro :: ms, s => runMoves ms (microStep s)

/-- The six micro-steps of a TRYPOP with nothing between them (20_memory R53: "atomic at its snapshot"). -/
def tryPopAtOnce (s : State) : State :=
  microStep (microStep (microStep (microStep (microStep (takeSnapshot s)))))

/-- Some steps, one after another. -/
def runSteps : Nat → State → Host.Outcome State Fault Refusal
  | 0, s => .next s
  | n + 1, s =>
    match step s with
    | .next s' => runSteps n s'
    | .fault r => .fault r
    | .refused r => .refused r

/-- Steps until no TRYPOP is in progress, at most `n` of them. -/
def finishCall : Nat → State → Host.Outcome State Fault Refusal
  | 0, s => .next s
  | n + 1, s =>
    if s.call = .idle then .next s
    else match step s with
      | .next s' => finishCall n s'
      | .fault r => .fault r
      | .refused r => .refused r

/-- A TRYPOP from its issue to its end: the operation, which is micro-step 1, and the steps of the other five
(00_scope R9; 41_message_reader R127). -/
def tryPopToEnd (s : State) : Host.Outcome State Fault Refusal :=
  match exec .tryPop s with
  | .next s' => finishCall 5 s'
  | .fault r => .fault r
  | .refused r => .refused r

/-- What a move takes at the handler port: an edge, or a quiet slot for a micro-step (assumption 4). -/
def Move.entry : Move → Option EdgeEvent
  | .edge e => some e
  | .micro => none

/-- The cursor snapshot of a TRYPOP in progress (10_state R26). -/
def TryPopCall.cursorSnapshot : TryPopCall → Option SlotIndex
  | .idle => none
  | .snapshot c => some c
  | .lenRead c _ => some c
  | .gapRead c _ _ => some c
  | .matched c _ _ _ _ => some c
  | .copied c _ => some c

/-- The same state on another epoch of the microsecond counter: the four time registers moved by `k`
(30_encoding R63; 40_edge_decoder R97 (a)). -/
def State.shiftTimes (s : State) (k : Time) : State :=
  { s with
    lastHalfBitTime := s.lastHalfBitTime + k
    lastFlipTime := s.lastFlipTime + k
    lastMsgTime := s.lastMsgTime + k
    recvMsgTime := s.recvMsgTime + k }

/-- No edge stands at the handler port before the foreground agent's next move. -/
def ForegroundMoves (s : State) : Prop := ∀ e rest, s.handlerPort ≠ some e :: rest

/-- No edge arrives during the foreground agent's next `n` chances to move. -/
def QuietFor (n : Nat) (s : State) : Prop := ∀ a ∈ s.handlerPort.take n, a = none

/-- A data bit's halves lie in their windows: 300 to 900 inactive, 300 to 1500 active (30_encoding R69). -/
def BitTimed (b : Time × Time) : Prop :=
  300 ≤ b.1.toNat ∧ b.1.toNat ≤ 900 ∧ 300 ≤ b.2.toNat ∧ b.2.toNat ≤ 1500

/-- The time from a frame's first edge to its last: its halves, one after another (30_encoding R69). -/
def frameLength (startActive : Time) (bits : List (Time × Time)) : Nat :=
  startActive.toNat + (bits.map fun b => b.1.toNat + b.2.toNat).sum

/-- The bit that an active half carries on the line: 900 microseconds and above read 1 (30_encoding R69). -/
def lineBit (b : Time × Time) : Bool := decide (900 ≤ b.2.toNat)

end Sys2Proof.Machine
end

