-- ==== Sys2Proof/Certificates/Slice0/Obligations.lean ====
section
/-! DEFINITION. The statements about the model, for the provers. The numbers are the spec's, written out, so that a
statement does not lean on the model's constants. -/

open Sys2Proof Sys2Proof.Machine

/-! ## Encoding -/

/-- 95_test_vectors V34: the words that its table decodes. -/
def Obligations.SpecWordsDecodeToTheirOperations : Prop :=
  decode 0x0000186A0 = .ok (.edge 100000 false) ∧
  decode 0x100019000 = .ok (.edge 102400 true) ∧
  decode 0x1FFFFFFFF = .ok (.edge 4294967295 true) ∧
  decode 0x200000000 = .ok .tryPop ∧
  decode 0x400000000 = .ok .init ∧
  decode 0x6000000FF = .ok (.start 255) ∧
  decode 0x800000002 = .ok (.stop 2) ∧
  decode 0xA00000000 = .ok .errIdx ∧
  decode 0xC00000000 = .ok (.reserved6 0) ∧
  decode 0xE00000000 = .ok (.reserved7 0) ∧
  decode 0x200000001 = .error .formatNNotZero ∧
  decode 0x600000100 = .error .formatLNotZero ∧
  decode 0x700000002 = .error .formatLNotZero

/-- Decoding an encoded operation gives it back, with every operand at every value. -/
def Obligations.DecodeOfEncodeIsTheOperation : Prop :=
  ∀ i : Instr, decode (encode i) = .ok i

/-- Every word that decodes is the encoding of what it decodes to: an operation has one word. -/
def Obligations.EncodeOfDecodeIsTheWord : Prop :=
  ∀ (w : OpWord) (i : Instr), decode w = .ok i → encode i = w

/-- 30_encoding R62: mask and match select the row. -/
def Obligations.MaskAndMatchSelectTheRow : Prop :=
  ∀ w : OpWord,
    (w &&& 0xE00000000 = 0x000000000 ↔ ∃ t l, decode w = .ok (.edge t l)) ∧
    (w &&& 0xFFFFFFFFF = 0x200000000 ↔ decode w = .ok .tryPop) ∧
    (w &&& 0xFFFFFFFFF = 0x400000000 ↔ decode w = .ok .init) ∧
    (w &&& 0xFFFFFFF00 = 0x600000000 ↔ ∃ n, decode w = .ok (.start n)) ∧
    (w &&& 0xFFFFFFF00 = 0x800000000 ↔ ∃ n, decode w = .ok (.stop n)) ∧
    (w &&& 0xFFFFFFFFF = 0xA00000000 ↔ decode w = .ok .errIdx) ∧
    (w &&& 0xE00000000 = 0xC00000000 ↔ ∃ p, decode w = .ok (.reserved6 p)) ∧
    (w &&& 0xE00000000 = 0xE00000000 ↔ ∃ p, decode w = .ok (.reserved7 p))

/-- 30_encoding R63: the operands are fields of the word. That a reserved row's payload is `W[32:0]` is the model's choice
(assumption 12). -/
def Obligations.OperandsAreFieldsOfTheWord : Prop :=
  ∀ (w : OpWord) (i : Instr), decode w = .ok i →
    match i with
    | .edge t l => t.toNat = w.toNat % 2 ^ 32 ∧ (l = true ↔ w.toNat / 2 ^ 32 % 2 = 1)
    | .start n => n.toNat = w.toNat % 2 ^ 8
    | .stop n => n.toNat = w.toNat % 2 ^ 8
    | .reserved6 p => p.toNat = w.toNat % 2 ^ 33
    | .reserved7 p => p.toNat = w.toNat % 2 ^ 33
    | .tryPop => True
    | .init => True
    | .errIdx => True

/-- 30_encoding R67: which words are illegal. A word decodes to no operation exactly if a must-be-zero bit of its
format is set, and every EDGE word is legal. -/
def Obligations.IllegalWordsAreThoseWithANonZeroReservedBit : Prop :=
  ∀ w : OpWord,
    ((∃ e, decode w = .error e) ↔
      ((w.toNat / 2 ^ 33 = 3 ∨ w.toNat / 2 ^ 33 = 4) ∧ w.toNat / 2 ^ 8 % 2 ^ 25 ≠ 0) ∨
      ((w.toNat / 2 ^ 33 = 1 ∨ w.toNat / 2 ^ 33 = 2 ∨ w.toNat / 2 ^ 33 = 5) ∧ w.toNat % 2 ^ 33 ≠ 0)) ∧
    (w.toNat / 2 ^ 33 = 0 → ∃ t l, decode w = .ok (.edge t l))

/-- 30_encoding R67: an illegal or reserved word that the foreground agent issues changes nothing but the response,
which is `illegal`; the ports, which are the model's own (assumptions 3, 4, 18), move on by this word. -/
def Obligations.IllegalOrReservedWordOnlyAnswersIllegal : Prop :=
  ∀ (s : State) (w : OpWord) (rest : List OpWord),
    s.call = .idle → ForegroundMoves s → s.foregroundPort = w :: rest →
    ((w.toNat / 2 ^ 33 = 6 ∨ w.toNat / 2 ^ 33 = 7) ∨
      ((w.toNat / 2 ^ 33 = 3 ∨ w.toNat / 2 ^ 33 = 4) ∧ w.toNat / 2 ^ 8 % 2 ^ 25 ≠ 0) ∨
      ((w.toNat / 2 ^ 33 = 1 ∨ w.toNat / 2 ^ 33 = 2 ∨ w.toNat / 2 ^ 33 = 5) ∧ w.toNat % 2 ^ 33 ≠ 0)) →
    step s = .next { s with
      handlerPort := s.handlerPort.tail, foregroundPort := rest, response := some 0x2000000000000 }

/-- 30_encoding R67 and the reserved rows of the opcode table: both complete with the response `illegal`. -/
def Obligations.ReservedRowsAnswerIllegal : Prop :=
  ∀ (s : State) (p : BitVec 33), s.call = .idle →
    exec (.reserved6 p) s = .next { s with response := some 0x2000000000000 } ∧
    exec (.reserved7 p) s = .next { s with response := some 0x2000000000000 }

/-- 30_encoding R64, R65: the places of the fields in the response word of a delivered message. -/
def Obligations.ResponseWordHoldsTheRecord : Prop :=
  ∀ m : MessageRecord,
    (respMessage m).toNat =
      2 ^ 48 + m.gapTime.toNat * 2 ^ 32 + m.lenTime.toNat * 2 ^ 16 + m.cmd.toNat * 2 ^ 8 + m.adr.toNat ∧
    (packRecord m).toNat =
      m.gapTime.toNat * 2 ^ 32 + m.lenTime.toNat * 2 ^ 16 + m.cmd.toNat * 2 ^ 8 + m.adr.toNat

/-! ## EDGE -/

/-- 42_lifecycle_diag R144: an edge that arrives while `enabled` is false is dropped. -/
def Obligations.EdgeWhileDisabledIsDropped : Prop :=
  ∀ (s : State) (t : Time) (l : Bool), s.enabled = false →
    exec (.edge t l) s = .next { s with edgeOutcome := some .ignored, handlerResponse := some 0 }

/-- 40_edge_decoder R82: an inactive-level edge in `GAP` changes no state element. -/
def Obligations.InactiveEdgeInGapIsIgnored : Prop :=
  ∀ (s : State) (t : Time), s.enabled = true → s.lastLevelIndex = .gap →
    exec (.edge t true) s = .next { s with edgeOutcome := some .ignored, handlerResponse := some 0 }

/-- 40_edge_decoder R88, R95: an active-level edge in `GAP` begins a message in `slot[cursor]`. -/
def Obligations.ActiveEdgeInGapBeginsAMessage : Prop :=
  ∀ (s : State) (t : Time), s.enabled = true → s.lastLevelIndex = .gap →
    exec (.edge t false) s = .next { s with
      lastLevelIndex := .half 0
      lastHalfBitTime := t
      lastFlipTime := t
      requestTinyErrorLevel := false
      recvMsgTime := t
      slot := s.slot.setRecord s.cursor
        { gapTime := BitVec.ofNat 16 (min ((t - s.lastMsgTime).toNat / 128) 65535), lenTime := 0, cmd := 0, adr := 0 }
      edgeOutcome := some .continues
      handlerResponse := some 0 }

/-- 40_edge_decoder R89: the start bit's active half, with the effects of R85, R86 and R95. -/
def Obligations.StartBitActiveHalf : Prop :=
  ∀ (s : State) (t : Time), s.enabled = true → s.lastLevelIndex = .half 0 →
    exec (.edge t true) s = .next (
      if (t - s.lastHalfBitTime).toNat < 1800 then { s with
        requestTinyErrorLevel := true, lastFlipTime := t
        edgeOutcome := some .softError, handlerResponse := some 0 }
      else if (t - s.lastHalfBitTime).toNat > 3000 then { s with
        requestTinyErrorLevel := false, lastErrorAtLevelIndex := 0, lastLevelIndex := .gap, lastFlipTime := t
        edgeOutcome := some .hardError, handlerResponse := some 0 }
      else { s with
        requestTinyErrorLevel := false, lastLevelIndex := .half 1, lastHalfBitTime := t, lastFlipTime := t
        edgeOutcome := some .continues, handlerResponse := some 0 })

/-- 40_edge_decoder R90: an inactive half, with the effects of R85, R86 and R95. -/
def Obligations.InactiveHalf : Prop :=
  ∀ (s : State) (t : Time) (i : Fin 25) (hi : i.val % 2 = 1), s.enabled = true → s.lastLevelIndex = .half i →
    exec (.edge t false) s = .next (
      if (t - s.lastHalfBitTime).toNat < 300 then { s with
        requestTinyErrorLevel := true, lastFlipTime := t
        edgeOutcome := some .softError, handlerResponse := some 0 }
      else if (t - s.lastHalfBitTime).toNat > 900 then { s with
        requestTinyErrorLevel := false, lastErrorAtLevelIndex := BitVec.ofNat 8 i.val
        lastLevelIndex := .gap, lastFlipTime := t
        edgeOutcome := some .hardError, handlerResponse := some 0 }
      else { s with
        requestTinyErrorLevel := false, lastLevelIndex := .half ⟨i.val + 1, by omega⟩
        lastHalfBitTime := t, lastFlipTime := t
        edgeOutcome := some .continues, handlerResponse := some 0 })

/-- 40_edge_decoder R91 to R93: data bit `k` of the first eleven (half-bit `2k + 2`). A 1 is OR-ed into bit `k` of
`cmd`, or into bit `k - 7` of `adr`. -/
def Obligations.DataBitActiveHalf : Prop :=
  ∀ (s : State) (t : Time) (k : Nat) (hk : k ≤ 10), s.enabled = true →
    s.lastLevelIndex = .half ⟨2 * k + 2, by omega⟩ →
    exec (.edge t true) s = .next (
      if (t - s.lastHalfBitTime).toNat < 300 then { s with
        requestTinyErrorLevel := true, lastFlipTime := t
        edgeOutcome := some .softError, handlerResponse := some 0 }
      else if (t - s.lastHalfBitTime).toNat > 1500 then { s with
        requestTinyErrorLevel := false, lastErrorAtLevelIndex := BitVec.ofNat 8 (2 * k + 2)
        lastLevelIndex := .gap, lastFlipTime := t
        edgeOutcome := some .hardError, handlerResponse := some 0 }
      else { s with
        requestTinyErrorLevel := false, lastLevelIndex := .half ⟨2 * k + 3, by omega⟩
        lastHalfBitTime := t, lastFlipTime := t
        slot := s.slot.setRecord s.cursor (
          let r := s.slot.record s.cursor
          let bit := if (t - s.lastHalfBitTime).toNat < 900 then 0 else 1
          if k < 7 then { r with cmd := r.cmd ||| BitVec.ofNat 8 (bit * 2 ^ k) }
          else { r with adr := r.adr ||| BitVec.ofNat 8 (bit * 2 ^ (k - 7)) })
        edgeOutcome := some .continues, handlerResponse := some 0 })

/-- 40_edge_decoder R91, R92, R94: the final data bit. A 1 is OR-ed into bit 4 of `adr`; the record gets its
duration, the cursor advances and the decoder returns to `GAP`. -/
def Obligations.FinalDataBitCommits : Prop :=
  ∀ (s : State) (t : Time), s.enabled = true → s.lastLevelIndex = .half 24 →
    exec (.edge t true) s = .next (
      if (t - s.lastHalfBitTime).toNat < 300 then { s with
        requestTinyErrorLevel := true, lastFlipTime := t
        edgeOutcome := some .softError, handlerResponse := some 0 }
      else if (t - s.lastHalfBitTime).toNat > 1500 then { s with
        requestTinyErrorLevel := false, lastErrorAtLevelIndex := 24, lastLevelIndex := .gap, lastFlipTime := t
        edgeOutcome := some .hardError, handlerResponse := some 0 }
      else { s with
        requestTinyErrorLevel := false, lastLevelIndex := .gap
        lastHalfBitTime := t, lastFlipTime := t, lastMsgTime := t, cursor := s.cursor + 1
        slot := s.slot.setRecord s.cursor (
          let r := s.slot.record s.cursor
          let bit := if (t - s.lastHalfBitTime).toNat < 900 then 0 else 1
          { r with
            adr := r.adr ||| BitVec.ofNat 8 (bit * 2 ^ 4)
            lenTime := BitVec.ofNat 16 (t - s.recvMsgTime).toNat })
        edgeOutcome := some .messageCommitted, handlerResponse := some 0 })

/-- 40_edge_decoder R83, R84: an edge to the level of the half-bit in progress (even: active, odd: inactive) is
unexpected. -/
def Obligations.UnexpectedLevel : Prop :=
  ∀ (s : State) (t : Time) (i : Fin 25), s.enabled = true → s.lastLevelIndex = .half i →
    exec (.edge t (decide (i.val % 2 = 1))) s = .next (
      if (t - s.lastFlipTime).toNat < 300 ∧ s.requestTinyErrorLevel = false then { s with
        requestTinyErrorLevel := true, lastFlipTime := t
        edgeOutcome := some .softError, handlerResponse := some 0 }
      else { s with
        lastErrorAtLevelIndex := BitVec.ofNat 8 i.val, lastLevelIndex := .gap, lastFlipTime := t
        edgeOutcome := some .hardError, handlerResponse := some 0 })

/-- 40_edge_decoder R98: the transition table of `lastLevelIndex`, its fourteen rows in order. -/
def Obligations.LevelIndexTransitionTable : Prop :=
  ∀ (s s' : State) (t : Time) (l : Bool), s.enabled = true → exec (.edge t l) s = .next s' →
    let d := (t - s.lastHalfBitTime).toNat
    let f := (t - s.lastFlipTime).toNat
    let after := fun (x : LevelIndex) (o : EdgeOutcome) => s'.lastLevelIndex = x ∧ s'.edgeOutcome = some o
    match s.lastLevelIndex with
    | .gap => (l = true → after .gap .ignored) ∧ (l = false → after (.half 0) .continues)
    | .half i =>
      let e := l = decide (i.val % 2 = 0)
      (¬ e ∧ f < 300 ∧ s.requestTinyErrorLevel = false → after (.half i) .softError) ∧
      (¬ e ∧ (300 ≤ f ∨ s.requestTinyErrorLevel = true) → after .gap .hardError) ∧
      (i.val = 0 ∧ e ∧ d < 1800 → after (.half 0) .softError) ∧
      (i.val = 0 ∧ e ∧ 1800 ≤ d ∧ d ≤ 3000 → after (.half 1) .continues) ∧
      (i.val = 0 ∧ e ∧ 3000 < d → after .gap .hardError) ∧
      (i.val % 2 = 1 ∧ e ∧ d < 300 → after (.half i) .softError) ∧
      (∀ h : i.val % 2 = 1, e ∧ 300 ≤ d ∧ d ≤ 900 → after (.half ⟨i.val + 1, by omega⟩) .continues) ∧
      (i.val % 2 = 1 ∧ e ∧ 900 < d → after .gap .hardError) ∧
      (i.val % 2 = 0 ∧ 2 ≤ i.val ∧ e ∧ d < 300 → after (.half i) .softError) ∧
      (∀ h : i.val % 2 = 0 ∧ 2 ≤ i.val ∧ i.val ≤ 22,
        e ∧ 300 ≤ d ∧ d ≤ 1500 → after (.half ⟨i.val + 1, by omega⟩) .continues) ∧
      (i.val = 24 ∧ e ∧ 300 ≤ d ∧ d ≤ 1500 → after .gap .messageCommitted) ∧
      (i.val % 2 = 0 ∧ 2 ≤ i.val ∧ e ∧ 1500 < d → after .gap .hardError)

/-- 40_edge_decoder R85: whatever raised it, a soft error arms the flag and records the flip time, nothing else. -/
def Obligations.SoftErrorWritesFlagAndFlipTimeOnly : Prop :=
  ∀ (s s' : State) (t : Time) (l : Bool),
    exec (.edge t l) s = .next s' → s'.edgeOutcome = some .softError →
    s' = { s with
      requestTinyErrorLevel := true, lastFlipTime := t, edgeOutcome := some .softError, handlerResponse := some 0 }

/-- 40_edge_decoder R86, R87: whatever raised it, a hard error records the old level index, returns to `GAP` and
records the flip time, nothing else; the flag is cleared before it if the level was the expected one. -/
def Obligations.HardErrorWritesIndexGapAndFlipTimeOnly : Prop :=
  ∀ (s s' : State) (t : Time) (l : Bool),
    exec (.edge t l) s = .next s' → s'.edgeOutcome = some .hardError →
    ∃ i : Fin 25, s.lastLevelIndex = .half i ∧
      s' = { s with
        lastErrorAtLevelIndex := BitVec.ofNat 8 i.val
        lastLevelIndex := .gap
        lastFlipTime := t
        requestTinyErrorLevel := if l = decide (i.val % 2 = 0) then false else s.requestTinyErrorLevel
        edgeOutcome := some .hardError
        handlerResponse := some 0 }

/-- What an EDGE leaves unchanged, in every case: the lifecycle registers, the TRYPOP in progress and its response,
the ports, and every location of every slot but the one in progress; and what it leaves unchanged without a commit:
the cursor and `lastMsgTime` (20_memory R46; 10_state R16, R18). -/
def Obligations.EdgeFrame : Prop :=
  ∀ (s s' : State) (t : Time) (l : Bool), exec (.edge t l) s = .next s' →
    s'.enabled = s.enabled ∧ s'.watchLine = s.watchLine ∧ s'.call = s.call ∧ s'.response = s.response ∧
    s'.handlerPort = s.handlerPort ∧ s'.foregroundPort = s.foregroundPort ∧
    (∀ (j : SlotIndex) (w : Nat) (f : SlotField w), j ≠ s.cursor → memRead s'.slot j f = memRead s.slot j f) ∧
    (s'.edgeOutcome ≠ some .messageCommitted → s'.cursor = s.cursor ∧ s'.lastMsgTime = s.lastMsgTime) ∧
    (s'.edgeOutcome = some .ignored ∨ s'.edgeOutcome = some .softError ∨ s'.edgeOutcome = some .hardError →
      s'.slot = s.slot ∧ s'.lastHalfBitTime = s.lastHalfBitTime ∧ s'.recvMsgTime = s.recvMsgTime) ∧
    (s'.edgeOutcome ≠ some .hardError → s'.lastErrorAtLevelIndex = s.lastErrorAtLevelIndex)

/-- 40_edge_decoder R102: no error is declared in `GAP`, and the inactive level leaves every state element as it is. -/
def Obligations.NoErrorIsDeclaredInGap : Prop :=
  ∀ (s s' : State) (t : Time) (l : Bool), s.lastLevelIndex = .gap → exec (.edge t l) s = .next s' →
    s'.edgeOutcome ≠ some .softError ∧ s'.edgeOutcome ≠ some .hardError ∧
    s'.lastErrorAtLevelIndex = s.lastErrorAtLevelIndex ∧
    (l = true → s' = { s with edgeOutcome := some .ignored, handlerResponse := some 0 })

/-- 40_edge_decoder R100: after a soft error at half-bit `i`, an edge to the unexpected level is a hard error whatever
its time, and an edge to the expected level is timed against the preserved boundary, with the flag cleared. -/
def Obligations.WhatFollowsASoftError : Prop :=
  ∀ (s s1 s2 : State) (t1 t2 : Time) (l1 l2 : Bool) (i : Fin 25),
    exec (.edge t1 l1) s = .next s1 → s1.edgeOutcome = some .softError → s1.lastLevelIndex = .half i →
    exec (.edge t2 l2) s1 = .next s2 →
    (l2 = decide (i.val % 2 = 1) →
      s2.edgeOutcome = some .hardError ∧ s2.lastLevelIndex = .gap ∧ s2.requestTinyErrorLevel = true) ∧
    (l2 = decide (i.val % 2 = 0) →
      (s2.edgeOutcome = some .continues ∨ s2.edgeOutcome = some .messageCommitted ↔
        (if i.val = 0 then 1800 else 300) ≤ (t2 - s.lastHalfBitTime).toNat ∧
        (t2 - s.lastHalfBitTime).toNat ≤ (if i.val = 0 then 3000 else if i.val % 2 = 1 then 900 else 1500)) ∧
      (s2.edgeOutcome ≠ some .softError → s2.requestTinyErrorLevel = false))

/-- 40_edge_decoder R105: below a window's lower bound a soft error keeps the level index, above its upper bound a hard
error returns to `GAP`; neither commits a message. -/
def Obligations.OutOfWindowDurations : Prop :=
  ∀ (s : State) (t : Time) (i : Fin 25), s.enabled = true → s.lastLevelIndex = .half i →
    ∃ s', exec (.edge t (decide (i.val % 2 = 0))) s = .next s' ∧
      ((t - s.lastHalfBitTime).toNat < (if i.val = 0 then 1800 else 300) →
        s'.edgeOutcome = some .softError ∧ s'.lastLevelIndex = s.lastLevelIndex ∧
        s'.cursor = s.cursor ∧ s'.slot = s.slot) ∧
      ((if i.val = 0 then 3000 else if i.val % 2 = 1 then 900 else 1500) < (t - s.lastHalfBitTime).toNat →
        s'.edgeOutcome = some .hardError ∧ s'.lastLevelIndex = .gap ∧
        s'.cursor = s.cursor ∧ s'.slot = s.slot)

/-- 40_edge_decoder R104: a commit from a state that meets the invariant writes a duration of 9000 to 31800. -/
def Obligations.CommittedDurationIsInRange : Prop :=
  ∀ (s s' : State) (t : Time) (l : Bool), Inv s → exec (.edge t l) s = .next s' →
    s'.edgeOutcome = some .messageCommitted →
    9000 ≤ (memRead s'.slot s.cursor .lenTime).toNat ∧ (memRead s'.slot s.cursor .lenTime).toNat ≤ 31800

/-- 40_edge_decoder R103: a frame whose halves lie in their windows commits exactly one message, whose `cmd` and `adr`
are the injected values, from any state in `GAP`. -/
def Obligations.WellFormedFrameIsDecoded : Prop :=
  ∀ (s : State) (t0 start : Time) (bits : List (Time × Time)) (cmd : BitVec 7) (adr : BitVec 5),
    s.enabled = true → s.lastLevelIndex = .gap →
    1800 ≤ start.toNat → start.toNat ≤ 3000 → (∀ b ∈ bits, BitTimed b) →
    bits.map lineBit = frameBits cmd adr →
    commitCount (frameEdges t0 start bits) s = 1 ∧
    ∃ s', runEdges (frameEdges t0 start bits) s = .next s' ∧
      s'.lastLevelIndex = .gap ∧ s'.edgeOutcome = some .messageCommitted ∧ s'.cursor = s.cursor + 1 ∧
      s'.lastMsgTime = t0 + BitVec.ofNat 32 (frameLength start bits) ∧
      s'.slot = s.slot.setRecord s.cursor {
        gapTime := BitVec.ofNat 16 (min ((t0 - s.lastMsgTime).toNat / 128) 65535)
        lenTime := BitVec.ofNat 16 (frameLength start bits)
        cmd := cmd.setWidth 8
        adr := adr.setWidth 8 }

/-- The decoder measures time by differences only: on another epoch of the counter it does the same
(30_encoding R63; 40_edge_decoder R97 (a)). -/
def Obligations.EdgeIsTheSameOnEveryEpoch : Prop :=
  ∀ (s s' : State) (t k : Time) (l : Bool), exec (.edge t l) s = .next s' →
    exec (.edge (t + k) l) (s.shiftTimes k) = .next (s'.shiftTimes k)

/-- 30_encoding R71: `FRAME t0 cmd adr` is 26 edges, the first at `t0` to the active level, and the last at `t0 + 16800`
plus 600 for each 1 bit. -/
def Obligations.NominalFrameHasItsLength : Prop :=
  ∀ (t0 : Time) (cmd : BitVec 7) (adr : BitVec 5),
    (frame t0 cmd adr).length = 26 ∧
    (frame t0 cmd adr).head? = some ⟨t0, false⟩ ∧
    (frame t0 cmd adr).getLast? =
      some ⟨t0 + BitVec.ofNat 32 (16800 + 600 * (frameBits cmd adr).count true), true⟩

/-! ## TRYPOP -/

/-- 41_message_reader R120 to R126: a TRYPOP that no edge pre-empts before it ends. The operation is micro-step 1, the
cursor snapshot; the steps after it make the empty check, the first-press check, the mismatch check and the delivery.
The quiet slots that pass at the handler port are one for each of these steps (the model's choice: assumptions 4, 5). -/
def Obligations.TryPopWithoutPreemption : Prop :=
  ∀ s : State, s.call = .idle →
    let cur := s.slot.record (s.cursor + 3)
    let prev := s.slot.record (s.cursor + 2)
    exec .tryPop s = .next { s with call := .snapshot s.cursor } ∧
    (cur.lenTime = 0 → QuietFor 1 s →
      tryPopToEnd s = .next { s with response := some 0, handlerPort := s.handlerPort.drop 1 }) ∧
    (cur.lenTime ≠ 0 → 586 < cur.gapTime.toNat → QuietFor 2 s →
      tryPopToEnd s = .next { s with response := some 0, handlerPort := s.handlerPort.drop 2 }) ∧
    (cur.lenTime ≠ 0 → cur.gapTime.toNat ≤ 586 → cur.adr ≠ prev.adr ∨ cur.cmd ≠ prev.cmd → QuietFor 3 s →
      tryPopToEnd s = .next { s with response := some 0, handlerPort := s.handlerPort.drop 3 }) ∧
    (cur.lenTime ≠ 0 → cur.gapTime.toNat ≤ 586 → cur.adr = prev.adr → cur.cmd = prev.cmd → QuietFor 5 s →
      tryPopToEnd s = .next { s with
        slot := s.slot.setRecord (s.cursor + 3) { cur with lenTime := 0 }
        response := some (BitVec.ofNat 50 (2 ^ 48 + cur.gapTime.toNat * 2 ^ 32 + cur.lenTime.toNat * 2 ^ 16
          + cur.cmd.toNat * 2 ^ 8 + cur.adr.toNat))
        handlerPort := s.handlerPort.drop 5 })

/-- 41_message_reader R127, 60_exceptions R166: an edge that arrives `k` micro-steps from now, while a TRYPOP is in
progress that they do not end earlier, runs after exactly these micro-steps. Where it stands at the handler port is the
model's choice (assumption 4); a micro-step is one step (00_scope R9, as assumption 5 reads it). -/
def Obligations.TryPopIsPreemptedBetweenMicroSteps : Prop :=
  ∀ (s : State) (k : Nat) (e : EdgeEvent) (rest : List (Option EdgeEvent)),
    s.handlerPort = List.replicate k none ++ some e :: rest →
    (∀ j, j < k → (microStep^[j] s).call ≠ .idle) →
    runSteps k s = .next { microStep^[k] s with handlerPort := some e :: rest } ∧
    runSteps (k + 1) s = exec (.edge e.timestamp e.level) { microStep^[k] s with handlerPort := rest }

/-- 41_message_reader R127: micro-steps 2 to 6, each with its one access to the store at the instant it is made. -/
def Obligations.MicroStepsOfTryPop : Prop :=
  ∀ (s : State) (c : SlotIndex) (len gap : Half) (cmd adr : Byte) (m : MessageRecord),
    let cur := s.slot.record (c + 3)
    let prev := s.slot.record (c + 2)
    let empty := { s with call := .idle, response := some 0 }
    (takeSnapshot s = { s with call := .snapshot s.cursor }) ∧
    (s.call = .snapshot c →
      microStep s = if cur.lenTime = 0 then empty else { s with call := .lenRead c cur.lenTime }) ∧
    (s.call = .lenRead c len →
      microStep s = if 586 < cur.gapTime.toNat then empty else { s with call := .gapRead c len cur.gapTime }) ∧
    (s.call = .gapRead c len gap →
      microStep s = if cur.adr ≠ prev.adr ∨ cur.cmd ≠ prev.cmd then empty
        else { s with call := .matched c len gap cur.cmd cur.adr }) ∧
    (s.call = .matched c len gap cmd adr →
      microStep s = { s with
        call := .copied c { gapTime := gap, lenTime := len, cmd := cmd, adr := adr } }) ∧
    (s.call = .copied c m →
      microStep s = { s with
        call := .idle
        slot := s.slot.setRecord (c + 3) { cur with lenTime := 0 }
        response := some (respMessage m) })

/-- 20_memory R53, 41_message_reader R127: a TRYPOP during which fewer than two messages are committed is equivalent
to one that makes all its micro-steps at its cursor read, with the edges after it, wherever they fall. -/
def Obligations.TryPopIsLinearizableAtItsCursorRead : Prop :=
  ∀ (s : State) (moves : List Move), s.call = .idle → Move.micros moves = 5 →
    commitCount (Move.edges moves) s < 2 →
    runMoves moves (takeSnapshot s) = runEdges (Move.edges moves) (tryPopAtOnce s)

/-- 70_reset_and_hazards R184: the premise of fewer than two commits is needed. Some TRYPOP that two commits overrun
answers otherwise than at its cursor read, from a state that meets the invariant (95_test_vectors V29). -/
def Obligations.TwoCommitsCanBreakATryPop : Prop :=
  ∃ (s a b : State) (moves : List Move), Inv s ∧ s.call = .idle ∧ Move.micros moves = 5 ∧
    commitCount (Move.edges moves) s = 2 ∧
    runMoves moves (takeSnapshot s) = .next a ∧ runEdges (Move.edges moves) (tryPopAtOnce s) = .next b ∧
    a.response ≠ b.response

/-- 41_message_reader R124, R125, R126, R133: two frames one after the other, from any state in `GAP`, then a TRYPOP
that no edge pre-empts (the handler port is the model's own: assumption 4). It delivers the second frame's record if the gap between them is at most 586 units of 128
microseconds and the frames carry the same `cmd` and `adr`; otherwise it returns `empty`. -/
def Obligations.ConsensusOfTwoFrames : Prop :=
  ∀ (s : State) (t1 t2 start1 start2 : Time) (bits1 bits2 : List (Time × Time)) (cmd1 cmd2 : BitVec 7)
    (adr1 adr2 : BitVec 5),
    s.enabled = true → s.lastLevelIndex = .gap → s.call = .idle → QuietFor 5 s →
    1800 ≤ start1.toNat → start1.toNat ≤ 3000 → (∀ b ∈ bits1, BitTimed b) → bits1.map lineBit = frameBits cmd1 adr1 →
    1800 ≤ start2.toNat → start2.toNat ≤ 3000 → (∀ b ∈ bits2, BitTimed b) → bits2.map lineBit = frameBits cmd2 adr2 →
    let gap := (t2 - (t1 + BitVec.ofNat 32 (frameLength start1 bits1))).toNat / 128
    ∃ s' s'', runEdges (frameEdges t1 start1 bits1 ++ frameEdges t2 start2 bits2) s = .next s' ∧
      tryPopToEnd s' = .next s'' ∧ s''.call = .idle ∧ s''.response = some (
        if gap ≤ 586 ∧ cmd1 = cmd2 ∧ adr1 = adr2 then
          BitVec.ofNat 50 (2 ^ 48 + gap * 2 ^ 32 + frameLength start2 bits2 * 2 ^ 16 + cmd2.toNat * 2 ^ 8 + adr2.toNat)
        else 0)

/-- 41_message_reader R130: after a TRYPOP, with no commit in between, the next TRYPOP returns `empty` and changes no
slot. Neither is pre-empted, which the model says of its handler port (assumption 4). -/
def Obligations.TryPopTwiceWithoutACommitIsEmpty : Prop :=
  ∀ (s a b c : State) (es : List EdgeEvent), s.call = .idle → QuietFor 5 s → tryPopToEnd s = .next a →
    commitCount es a = 0 → runEdges es a = .next b → QuietFor 5 b → tryPopToEnd b = .next c →
    c.call = .idle ∧ c.response = some 0 ∧ c.slot = b.slot

/-- 41_message_reader R120 to R122, 20_memory R46: what a TRYPOP leaves unchanged. Its first micro-step takes the
snapshot `c` and nothing else. Each later one, whatever edges fall between them, keeps the snapshot, every register and
every location of the store but `lenTime` of slot `c + 3`, which the last micro-step alone writes. The quiet
slot that passes is the model's choice (assumption 4); a micro-step is one step (00_scope R9, as assumption 5 reads it). -/
def Obligations.TryPopFrame : Prop :=
  (∀ s s' : State, exec .tryPop s = .next s' → s' = { s with call := .snapshot s.cursor }) ∧
  (∀ (s s' : State) (c : SlotIndex), s.call.cursorSnapshot = some c → ForegroundMoves s → step s = .next s' →
    s' = { s with
      handlerPort := s.handlerPort.tail, slot := s'.slot, call := s'.call, response := s'.response } ∧
    (s'.call = .idle ∨ s'.call.cursorSnapshot = some c) ∧
    (s'.call ≠ .idle → s'.response = s.response) ∧
    ((∀ m, s.call ≠ .copied c m) → s'.slot = s.slot) ∧
    (∀ (j : SlotIndex) (w : Nat) (f : SlotField w), j ≠ c + 3 → memRead s'.slot j f = memRead s.slot j f) ∧
    memRead s'.slot (c + 3) .gapTime = memRead s.slot (c + 3) .gapTime ∧
    memRead s'.slot (c + 3) .cmd = memRead s.slot (c + 3) .cmd ∧
    memRead s'.slot (c + 3) .adr = memRead s.slot (c + 3) .adr)

/-- 41_message_reader R120, R127: a TRYPOP never waits. With no edge to come, the steps that go on with a call are its
next micro-steps, each once and in order, at most five, and the last ends it with a response. The quiet slots are the
model's choice (assumption 4); a micro-step is one step (00_scope R9, as assumption 5 reads it). -/
def Obligations.CallInProgressEndsWithoutWaiting : Prop :=
  ∀ s : State, s.call ≠ .idle → QuietFor 5 s →
    ∃ n, 1 ≤ n ∧ n ≤ 5 ∧
      finishCall 5 s = .next { microStep^[n] s with handlerPort := s.handlerPort.drop n } ∧
      (∀ j, j < n → (microStep^[j] s).call ≠ .idle) ∧
      (microStep^[n] s).call = .idle ∧ (microStep^[n] s).response ≠ none

/-- 00_scope R9: one step of the block, while a TRYPOP is in progress and no edge comes first, is its next micro-step.
The quiet slot that passes is the model's choice (assumption 4); what R9 makes a step is read as assumption 5 says. -/
def Obligations.StepOfACallIsOneMicroStep : Prop :=
  ∀ s : State, s.call ≠ .idle → ForegroundMoves s →
    step s = .next { microStep s with handlerPort := s.handlerPort.tail }

/-- 20_memory R48 items 1, 3 and 5: the steps of the block are one sequence of edges and micro-steps, in the order in
which they stand at the handler port (the model's choice: assumption 4), one step each (00_scope R9, as assumption 5
reads it). -/
def Obligations.StepsFollowTheSchedule : Prop :=
  ∀ (s : State) (moves : List Move), s.foregroundPort = [] →
    runSteps moves.length { s with handlerPort := moves.map Move.entry } = runMoves moves { s with handlerPort := [] }

/-! ## INIT, START, STOP, ERRIDX -/

/-- 42_lifecycle_diag R140: INIT gives every decoder register and every slot field its reset value, and leaves
`enabled` and `watchLine`. A second INIT changes nothing. -/
def Obligations.InitResetsDecoderAndStore : Prop :=
  ∀ s : State, s.call = .idle →
    exec .init s = .next { s with
      lastLevelIndex := .gap, lastHalfBitTime := 0, lastFlipTime := 0, lastMsgTime := 0, recvMsgTime := 0
      lastErrorAtLevelIndex := 0, requestTinyErrorLevel := false, cursor := 0
      slot := #v[⟨0, 0, 0, 0⟩, ⟨0, 0, 0, 0⟩, ⟨0, 0, 0, 0⟩, ⟨0, 0, 0, 0⟩]
      response := some 0 } ∧
    ∀ s', exec .init s = .next s' → exec .init s' = .next s'

/-- 42_lifecycle_diag R141: START opens the gate for a line the platform accepts and answers whether it does; nothing
else changes. -/
def Obligations.StartOpensTheGate : Prop :=
  ∀ (s : State) (n : Byte), s.call = .idle →
    exec (.start n) s = .next (
      if Config.lineOk n then { s with enabled := true, watchLine := n, response := some 1 }
      else { s with response := some 0 })

/-- 42_lifecycle_diag R142: STOP closes the gate if the platform accepts the line, which is not compared with
`watchLine`, and answers whether it does; nothing else changes. -/
def Obligations.StopClosesTheGate : Prop :=
  ∀ (s : State) (n : Byte), s.call = .idle →
    exec (.stop n) s = .next (
      if Config.lineOk n then { s with enabled := false, response := some 1 }
      else { s with response := some 0 })

/-- 42_lifecycle_diag R143: ERRIDX answers the diagnostic register and changes no state. -/
def Obligations.ErrIdxReadsTheErrorIndex : Prop :=
  ∀ s : State, s.call = .idle →
    exec .errIdx s = .next { s with response := some (BitVec.ofNat 50 s.lastErrorAtLevelIndex.toNat) }

/-- The model's choice (assumption 7; 93_implementation_defined U5): a foreground operation in the middle of a TRYPOP
has no meaning. -/
def Obligations.OverlappingForegroundOperationsAreRefused : Prop :=
  ∀ (s : State) (i : Instr), s.call ≠ .idle → (∀ t l, i ≠ .edge t l) → exec i s = .refused .foregroundBusy

/-- 10_state R25: `watchLine` is read by nothing inside the block. Two states that differ in it alone go on alike. -/
def Obligations.WatchLineIsReadByNothing : Prop :=
  ∀ (s s' : State) (v : Byte), step s = .next s' →
    ∃ v', step { s with watchLine := v } = .next { s' with watchLine := v' }

/-! ## The step, reset and the invariant -/

/-- A step runs the operation that stands next at the ports: an edge at the handler port, whatever the foreground
agent has in hand (60_exceptions R166); otherwise, between calls, the foreground agent's next word. What the step does
around `exec` is to take the word from its port, and a quiet slot with a foreground word: the ports are the model's own
(assumptions 3, 4), and so is running an EDGE word that stands at the foreground port (assumption 9). -/
def Obligations.StepRunsTheDecodedOperation : Prop :=
  (∀ (s : State) (e : EdgeEvent) (rest : List (Option EdgeEvent)), s.handlerPort = some e :: rest →
    step s = exec (.edge e.timestamp e.level) { s with handlerPort := rest }) ∧
  (∀ (s : State) (w : OpWord) (rest : List OpWord) (i : Instr),
    s.call = .idle → ForegroundMoves s → s.foregroundPort = w :: rest → decode w = .ok i →
    step s = exec i { s with handlerPort := s.handlerPort.tail, foregroundPort := rest })

/-- 40_edge_decoder R80, 60_exceptions R160: no error is a trap and every input has a meaning. Every step of the block,
from every state, answers a next state. -/
def Obligations.EveryStepAnswersANextState : Prop :=
  ∀ s : State, ∃ s', step s = .next s'

/-- 20_memory R48 item 2, 70_reset_and_hazards R188: while a TRYPOP is in progress the foreground agent issues nothing,
whatever the step is. The port that holds what it will issue is the model's own (assumption 3). -/
def Obligations.ForegroundWaitsForItsCall : Prop :=
  ∀ s s' : State, s.call ≠ .idle → step s = .next s' → s'.foregroundPort = s.foregroundPort

/-- 60_exceptions R174: with nothing at the ports and no TRYPOP in progress the block is idle and holds its state. The ports are
the model's own (assumptions 3, 4). -/
def Obligations.IdleBlockHoldsItsState : Prop :=
  ∀ s : State, s.call = .idle → s.handlerPort = [] → s.foregroundPort = [] → step s = .next s

/-- 10_state R29, 70_reset_and_hazards R180: the block after power-on. -/
def Obligations.ResetValues : Prop :=
  State.reset.lastLevelIndex = .gap ∧ State.reset.lastHalfBitTime = 0 ∧ State.reset.lastFlipTime = 0 ∧
  State.reset.lastMsgTime = 0 ∧ State.reset.recvMsgTime = 0 ∧ State.reset.lastErrorAtLevelIndex = 0 ∧
  State.reset.requestTinyErrorLevel = false ∧ State.reset.cursor = 0 ∧
  State.reset.slot = #v[⟨0, 0, 0, 0⟩, ⟨0, 0, 0, 0⟩, ⟨0, 0, 0, 0⟩, ⟨0, 0, 0, 0⟩] ∧
  State.reset.enabled = false ∧ State.reset.watchLine = 0

/-- The invariant holds after power-on (10_state R28). -/
def Obligations.InvariantHoldsAtReset : Prop := Inv State.reset

/-- Every step of every state keeps the invariant: the store's form, the flag and the flip time, the record in
progress, the durations of the stored records, the time elapsed in a message, the diagnostic register and the copies of
a TRYPOP in progress (10_state R28, items 3 to 6). -/
def Obligations.EveryStepKeepsTheInvariant : Prop :=
  ∀ s s' : State, Inv s → step s = .next s' → Inv s'
end

