-- ==== Sys2Proof/Laws/State.lean ====
section
/-! SUPPORT. What each named update of the state leaves in each field: one lemma for each field and update. -/

namespace Sys2Proof.Machine

/-! State.armTinyError -/

@[simp] theorem armTinyError_lastLevelIndex (s : State) :
    s.armTinyError.lastLevelIndex = s.lastLevelIndex := rfl
@[simp] theorem armTinyError_lastHalfBitTime (s : State) :
    s.armTinyError.lastHalfBitTime = s.lastHalfBitTime := rfl
@[simp] theorem armTinyError_lastFlipTime (s : State) :
    s.armTinyError.lastFlipTime = s.lastFlipTime := rfl
@[simp] theorem armTinyError_lastErrorAtLevelIndex (s : State) :
    s.armTinyError.lastErrorAtLevelIndex = s.lastErrorAtLevelIndex := rfl
@[simp] theorem armTinyError_requestTinyErrorLevel (s : State) :
    s.armTinyError.requestTinyErrorLevel = true := rfl
@[simp] theorem armTinyError_lastMsgTime (s : State) :
    s.armTinyError.lastMsgTime = s.lastMsgTime := rfl
@[simp] theorem armTinyError_recvMsgTime (s : State) :
    s.armTinyError.recvMsgTime = s.recvMsgTime := rfl
@[simp] theorem armTinyError_cursor (s : State) :
    s.armTinyError.cursor = s.cursor := rfl
@[simp] theorem armTinyError_slot (s : State) :
    s.armTinyError.slot = s.slot := rfl
@[simp] theorem armTinyError_enabled (s : State) :
    s.armTinyError.enabled = s.enabled := rfl
@[simp] theorem armTinyError_watchLine (s : State) :
    s.armTinyError.watchLine = s.watchLine := rfl
@[simp] theorem armTinyError_call (s : State) :
    s.armTinyError.call = s.call := rfl
@[simp] theorem armTinyError_handlerPort (s : State) :
    s.armTinyError.handlerPort = s.handlerPort := rfl
@[simp] theorem armTinyError_foregroundPort (s : State) :
    s.armTinyError.foregroundPort = s.foregroundPort := rfl
@[simp] theorem armTinyError_edgeOutcome (s : State) :
    s.armTinyError.edgeOutcome = s.edgeOutcome := rfl
@[simp] theorem armTinyError_handlerResponse (s : State) :
    s.armTinyError.handlerResponse = s.handlerResponse := rfl
@[simp] theorem armTinyError_response (s : State) :
    s.armTinyError.response = s.response := rfl

/-! State.clearTinyError -/

@[simp] theorem clearTinyError_lastLevelIndex (s : State) :
    s.clearTinyError.lastLevelIndex = s.lastLevelIndex := rfl
@[simp] theorem clearTinyError_lastHalfBitTime (s : State) :
    s.clearTinyError.lastHalfBitTime = s.lastHalfBitTime := rfl
@[simp] theorem clearTinyError_lastFlipTime (s : State) :
    s.clearTinyError.lastFlipTime = s.lastFlipTime := rfl
@[simp] theorem clearTinyError_lastErrorAtLevelIndex (s : State) :
    s.clearTinyError.lastErrorAtLevelIndex = s.lastErrorAtLevelIndex := rfl
@[simp] theorem clearTinyError_requestTinyErrorLevel (s : State) :
    s.clearTinyError.requestTinyErrorLevel = false := rfl
@[simp] theorem clearTinyError_lastMsgTime (s : State) :
    s.clearTinyError.lastMsgTime = s.lastMsgTime := rfl
@[simp] theorem clearTinyError_recvMsgTime (s : State) :
    s.clearTinyError.recvMsgTime = s.recvMsgTime := rfl
@[simp] theorem clearTinyError_cursor (s : State) :
    s.clearTinyError.cursor = s.cursor := rfl
@[simp] theorem clearTinyError_slot (s : State) :
    s.clearTinyError.slot = s.slot := rfl
@[simp] theorem clearTinyError_enabled (s : State) :
    s.clearTinyError.enabled = s.enabled := rfl
@[simp] theorem clearTinyError_watchLine (s : State) :
    s.clearTinyError.watchLine = s.watchLine := rfl
@[simp] theorem clearTinyError_call (s : State) :
    s.clearTinyError.call = s.call := rfl
@[simp] theorem clearTinyError_handlerPort (s : State) :
    s.clearTinyError.handlerPort = s.handlerPort := rfl
@[simp] theorem clearTinyError_foregroundPort (s : State) :
    s.clearTinyError.foregroundPort = s.foregroundPort := rfl
@[simp] theorem clearTinyError_edgeOutcome (s : State) :
    s.clearTinyError.edgeOutcome = s.edgeOutcome := rfl
@[simp] theorem clearTinyError_handlerResponse (s : State) :
    s.clearTinyError.handlerResponse = s.handlerResponse := rfl
@[simp] theorem clearTinyError_response (s : State) :
    s.clearTinyError.response = s.response := rfl

/-! State.softError -/

@[simp] theorem softError_lastLevelIndex (s : State) (t : Time) :
    (s.softError t).lastLevelIndex = s.lastLevelIndex := rfl
@[simp] theorem softError_lastHalfBitTime (s : State) (t : Time) :
    (s.softError t).lastHalfBitTime = s.lastHalfBitTime := rfl
@[simp] theorem softError_lastFlipTime (s : State) (t : Time) :
    (s.softError t).lastFlipTime = t := rfl
@[simp] theorem softError_lastErrorAtLevelIndex (s : State) (t : Time) :
    (s.softError t).lastErrorAtLevelIndex = s.lastErrorAtLevelIndex := rfl
@[simp] theorem softError_requestTinyErrorLevel (s : State) (t : Time) :
    (s.softError t).requestTinyErrorLevel = true := rfl
@[simp] theorem softError_lastMsgTime (s : State) (t : Time) :
    (s.softError t).lastMsgTime = s.lastMsgTime := rfl
@[simp] theorem softError_recvMsgTime (s : State) (t : Time) :
    (s.softError t).recvMsgTime = s.recvMsgTime := rfl
@[simp] theorem softError_cursor (s : State) (t : Time) :
    (s.softError t).cursor = s.cursor := rfl
@[simp] theorem softError_slot (s : State) (t : Time) :
    (s.softError t).slot = s.slot := rfl
@[simp] theorem softError_enabled (s : State) (t : Time) :
    (s.softError t).enabled = s.enabled := rfl
@[simp] theorem softError_watchLine (s : State) (t : Time) :
    (s.softError t).watchLine = s.watchLine := rfl
@[simp] theorem softError_call (s : State) (t : Time) :
    (s.softError t).call = s.call := rfl
@[simp] theorem softError_handlerPort (s : State) (t : Time) :
    (s.softError t).handlerPort = s.handlerPort := rfl
@[simp] theorem softError_foregroundPort (s : State) (t : Time) :
    (s.softError t).foregroundPort = s.foregroundPort := rfl
@[simp] theorem softError_edgeOutcome (s : State) (t : Time) :
    (s.softError t).edgeOutcome = s.edgeOutcome := rfl
@[simp] theorem softError_handlerResponse (s : State) (t : Time) :
    (s.softError t).handlerResponse = s.handlerResponse := rfl
@[simp] theorem softError_response (s : State) (t : Time) :
    (s.softError t).response = s.response := rfl

/-! State.hardError -/

@[simp] theorem hardError_lastLevelIndex (s : State) (t : Time) :
    (s.hardError t).lastLevelIndex = .gap := rfl
@[simp] theorem hardError_lastHalfBitTime (s : State) (t : Time) :
    (s.hardError t).lastHalfBitTime = s.lastHalfBitTime := rfl
@[simp] theorem hardError_lastFlipTime (s : State) (t : Time) :
    (s.hardError t).lastFlipTime = t := rfl
@[simp] theorem hardError_lastErrorAtLevelIndex (s : State) (t : Time) :
    (s.hardError t).lastErrorAtLevelIndex = s.lastLevelIndex.toByte := rfl
@[simp] theorem hardError_requestTinyErrorLevel (s : State) (t : Time) :
    (s.hardError t).requestTinyErrorLevel = s.requestTinyErrorLevel := rfl
@[simp] theorem hardError_lastMsgTime (s : State) (t : Time) :
    (s.hardError t).lastMsgTime = s.lastMsgTime := rfl
@[simp] theorem hardError_recvMsgTime (s : State) (t : Time) :
    (s.hardError t).recvMsgTime = s.recvMsgTime := rfl
@[simp] theorem hardError_cursor (s : State) (t : Time) :
    (s.hardError t).cursor = s.cursor := rfl
@[simp] theorem hardError_slot (s : State) (t : Time) :
    (s.hardError t).slot = s.slot := rfl
@[simp] theorem hardError_enabled (s : State) (t : Time) :
    (s.hardError t).enabled = s.enabled := rfl
@[simp] theorem hardError_watchLine (s : State) (t : Time) :
    (s.hardError t).watchLine = s.watchLine := rfl
@[simp] theorem hardError_call (s : State) (t : Time) :
    (s.hardError t).call = s.call := rfl
@[simp] theorem hardError_handlerPort (s : State) (t : Time) :
    (s.hardError t).handlerPort = s.handlerPort := rfl
@[simp] theorem hardError_foregroundPort (s : State) (t : Time) :
    (s.hardError t).foregroundPort = s.foregroundPort := rfl
@[simp] theorem hardError_edgeOutcome (s : State) (t : Time) :
    (s.hardError t).edgeOutcome = s.edgeOutcome := rfl
@[simp] theorem hardError_handlerResponse (s : State) (t : Time) :
    (s.hardError t).handlerResponse = s.handlerResponse := rfl
@[simp] theorem hardError_response (s : State) (t : Time) :
    (s.hardError t).response = s.response := rfl

/-! State.updateTimes -/

@[simp] theorem updateTimes_lastLevelIndex (s : State) (t : Time) :
    (s.updateTimes t).lastLevelIndex = s.lastLevelIndex := rfl
@[simp] theorem updateTimes_lastHalfBitTime (s : State) (t : Time) :
    (s.updateTimes t).lastHalfBitTime = t := rfl
@[simp] theorem updateTimes_lastFlipTime (s : State) (t : Time) :
    (s.updateTimes t).lastFlipTime = t := rfl
@[simp] theorem updateTimes_lastErrorAtLevelIndex (s : State) (t : Time) :
    (s.updateTimes t).lastErrorAtLevelIndex = s.lastErrorAtLevelIndex := rfl
@[simp] theorem updateTimes_requestTinyErrorLevel (s : State) (t : Time) :
    (s.updateTimes t).requestTinyErrorLevel = s.requestTinyErrorLevel := rfl
@[simp] theorem updateTimes_lastMsgTime (s : State) (t : Time) :
    (s.updateTimes t).lastMsgTime = s.lastMsgTime := rfl
@[simp] theorem updateTimes_recvMsgTime (s : State) (t : Time) :
    (s.updateTimes t).recvMsgTime = s.recvMsgTime := rfl
@[simp] theorem updateTimes_cursor (s : State) (t : Time) :
    (s.updateTimes t).cursor = s.cursor := rfl
@[simp] theorem updateTimes_slot (s : State) (t : Time) :
    (s.updateTimes t).slot = s.slot := rfl
@[simp] theorem updateTimes_enabled (s : State) (t : Time) :
    (s.updateTimes t).enabled = s.enabled := rfl
@[simp] theorem updateTimes_watchLine (s : State) (t : Time) :
    (s.updateTimes t).watchLine = s.watchLine := rfl
@[simp] theorem updateTimes_call (s : State) (t : Time) :
    (s.updateTimes t).call = s.call := rfl
@[simp] theorem updateTimes_handlerPort (s : State) (t : Time) :
    (s.updateTimes t).handlerPort = s.handlerPort := rfl
@[simp] theorem updateTimes_foregroundPort (s : State) (t : Time) :
    (s.updateTimes t).foregroundPort = s.foregroundPort := rfl
@[simp] theorem updateTimes_edgeOutcome (s : State) (t : Time) :
    (s.updateTimes t).edgeOutcome = s.edgeOutcome := rfl
@[simp] theorem updateTimes_handlerResponse (s : State) (t : Time) :
    (s.updateTimes t).handlerResponse = s.handlerResponse := rfl
@[simp] theorem updateTimes_response (s : State) (t : Time) :
    (s.updateTimes t).response = s.response := rfl

/-! State.endEdge -/

@[simp] theorem endEdge_lastLevelIndex (s : State) (g : EdgeOutcome) :
    (s.endEdge g).lastLevelIndex = s.lastLevelIndex := rfl
@[simp] theorem endEdge_lastHalfBitTime (s : State) (g : EdgeOutcome) :
    (s.endEdge g).lastHalfBitTime = s.lastHalfBitTime := rfl
@[simp] theorem endEdge_lastFlipTime (s : State) (g : EdgeOutcome) :
    (s.endEdge g).lastFlipTime = s.lastFlipTime := rfl
@[simp] theorem endEdge_lastErrorAtLevelIndex (s : State) (g : EdgeOutcome) :
    (s.endEdge g).lastErrorAtLevelIndex = s.lastErrorAtLevelIndex := rfl
@[simp] theorem endEdge_requestTinyErrorLevel (s : State) (g : EdgeOutcome) :
    (s.endEdge g).requestTinyErrorLevel = s.requestTinyErrorLevel := rfl
@[simp] theorem endEdge_lastMsgTime (s : State) (g : EdgeOutcome) :
    (s.endEdge g).lastMsgTime = s.lastMsgTime := rfl
@[simp] theorem endEdge_recvMsgTime (s : State) (g : EdgeOutcome) :
    (s.endEdge g).recvMsgTime = s.recvMsgTime := rfl
@[simp] theorem endEdge_cursor (s : State) (g : EdgeOutcome) :
    (s.endEdge g).cursor = s.cursor := rfl
@[simp] theorem endEdge_slot (s : State) (g : EdgeOutcome) :
    (s.endEdge g).slot = s.slot := rfl
@[simp] theorem endEdge_enabled (s : State) (g : EdgeOutcome) :
    (s.endEdge g).enabled = s.enabled := rfl
@[simp] theorem endEdge_watchLine (s : State) (g : EdgeOutcome) :
    (s.endEdge g).watchLine = s.watchLine := rfl
@[simp] theorem endEdge_call (s : State) (g : EdgeOutcome) :
    (s.endEdge g).call = s.call := rfl
@[simp] theorem endEdge_handlerPort (s : State) (g : EdgeOutcome) :
    (s.endEdge g).handlerPort = s.handlerPort := rfl
@[simp] theorem endEdge_foregroundPort (s : State) (g : EdgeOutcome) :
    (s.endEdge g).foregroundPort = s.foregroundPort := rfl
@[simp] theorem endEdge_edgeOutcome (s : State) (g : EdgeOutcome) :
    (s.endEdge g).edgeOutcome = some g := rfl
@[simp] theorem endEdge_handlerResponse (s : State) (g : EdgeOutcome) :
    (s.endEdge g).handlerResponse = some respZero := rfl
@[simp] theorem endEdge_response (s : State) (g : EdgeOutcome) :
    (s.endEdge g).response = s.response := rfl

/-! State.answer -/

@[simp] theorem answer_lastLevelIndex (s : State) (q : RespWord) :
    (s.answer q).lastLevelIndex = s.lastLevelIndex := rfl
@[simp] theorem answer_lastHalfBitTime (s : State) (q : RespWord) :
    (s.answer q).lastHalfBitTime = s.lastHalfBitTime := rfl
@[simp] theorem answer_lastFlipTime (s : State) (q : RespWord) :
    (s.answer q).lastFlipTime = s.lastFlipTime := rfl
@[simp] theorem answer_lastErrorAtLevelIndex (s : State) (q : RespWord) :
    (s.answer q).lastErrorAtLevelIndex = s.lastErrorAtLevelIndex := rfl
@[simp] theorem answer_requestTinyErrorLevel (s : State) (q : RespWord) :
    (s.answer q).requestTinyErrorLevel = s.requestTinyErrorLevel := rfl
@[simp] theorem answer_lastMsgTime (s : State) (q : RespWord) :
    (s.answer q).lastMsgTime = s.lastMsgTime := rfl
@[simp] theorem answer_recvMsgTime (s : State) (q : RespWord) :
    (s.answer q).recvMsgTime = s.recvMsgTime := rfl
@[simp] theorem answer_cursor (s : State) (q : RespWord) :
    (s.answer q).cursor = s.cursor := rfl
@[simp] theorem answer_slot (s : State) (q : RespWord) :
    (s.answer q).slot = s.slot := rfl
@[simp] theorem answer_enabled (s : State) (q : RespWord) :
    (s.answer q).enabled = s.enabled := rfl
@[simp] theorem answer_watchLine (s : State) (q : RespWord) :
    (s.answer q).watchLine = s.watchLine := rfl
@[simp] theorem answer_call (s : State) (q : RespWord) :
    (s.answer q).call = s.call := rfl
@[simp] theorem answer_handlerPort (s : State) (q : RespWord) :
    (s.answer q).handlerPort = s.handlerPort := rfl
@[simp] theorem answer_foregroundPort (s : State) (q : RespWord) :
    (s.answer q).foregroundPort = s.foregroundPort := rfl
@[simp] theorem answer_edgeOutcome (s : State) (q : RespWord) :
    (s.answer q).edgeOutcome = s.edgeOutcome := rfl
@[simp] theorem answer_handlerResponse (s : State) (q : RespWord) :
    (s.answer q).handlerResponse = s.handlerResponse := rfl
@[simp] theorem answer_response (s : State) (q : RespWord) :
    (s.answer q).response = some q := rfl

/-! State.endCall -/

@[simp] theorem endCall_lastLevelIndex (s : State) (q : RespWord) :
    (s.endCall q).lastLevelIndex = s.lastLevelIndex := rfl
@[simp] theorem endCall_lastHalfBitTime (s : State) (q : RespWord) :
    (s.endCall q).lastHalfBitTime = s.lastHalfBitTime := rfl
@[simp] theorem endCall_lastFlipTime (s : State) (q : RespWord) :
    (s.endCall q).lastFlipTime = s.lastFlipTime := rfl
@[simp] theorem endCall_lastErrorAtLevelIndex (s : State) (q : RespWord) :
    (s.endCall q).lastErrorAtLevelIndex = s.lastErrorAtLevelIndex := rfl
@[simp] theorem endCall_requestTinyErrorLevel (s : State) (q : RespWord) :
    (s.endCall q).requestTinyErrorLevel = s.requestTinyErrorLevel := rfl
@[simp] theorem endCall_lastMsgTime (s : State) (q : RespWord) :
    (s.endCall q).lastMsgTime = s.lastMsgTime := rfl
@[simp] theorem endCall_recvMsgTime (s : State) (q : RespWord) :
    (s.endCall q).recvMsgTime = s.recvMsgTime := rfl
@[simp] theorem endCall_cursor (s : State) (q : RespWord) :
    (s.endCall q).cursor = s.cursor := rfl
@[simp] theorem endCall_slot (s : State) (q : RespWord) :
    (s.endCall q).slot = s.slot := rfl
@[simp] theorem endCall_enabled (s : State) (q : RespWord) :
    (s.endCall q).enabled = s.enabled := rfl
@[simp] theorem endCall_watchLine (s : State) (q : RespWord) :
    (s.endCall q).watchLine = s.watchLine := rfl
@[simp] theorem endCall_call (s : State) (q : RespWord) :
    (s.endCall q).call = .idle := rfl
@[simp] theorem endCall_handlerPort (s : State) (q : RespWord) :
    (s.endCall q).handlerPort = s.handlerPort := rfl
@[simp] theorem endCall_foregroundPort (s : State) (q : RespWord) :
    (s.endCall q).foregroundPort = s.foregroundPort := rfl
@[simp] theorem endCall_edgeOutcome (s : State) (q : RespWord) :
    (s.endCall q).edgeOutcome = s.edgeOutcome := rfl
@[simp] theorem endCall_handlerResponse (s : State) (q : RespWord) :
    (s.endCall q).handlerResponse = s.handlerResponse := rfl
@[simp] theorem endCall_response (s : State) (q : RespWord) :
    (s.endCall q).response = some q := rfl

/-! takeSnapshot -/

@[simp] theorem takeSnapshot_lastLevelIndex (s : State) :
    (takeSnapshot s).lastLevelIndex = s.lastLevelIndex := rfl
@[simp] theorem takeSnapshot_lastHalfBitTime (s : State) :
    (takeSnapshot s).lastHalfBitTime = s.lastHalfBitTime := rfl
@[simp] theorem takeSnapshot_lastFlipTime (s : State) :
    (takeSnapshot s).lastFlipTime = s.lastFlipTime := rfl
@[simp] theorem takeSnapshot_lastErrorAtLevelIndex (s : State) :
    (takeSnapshot s).lastErrorAtLevelIndex = s.lastErrorAtLevelIndex := rfl
@[simp] theorem takeSnapshot_requestTinyErrorLevel (s : State) :
    (takeSnapshot s).requestTinyErrorLevel = s.requestTinyErrorLevel := rfl
@[simp] theorem takeSnapshot_lastMsgTime (s : State) :
    (takeSnapshot s).lastMsgTime = s.lastMsgTime := rfl
@[simp] theorem takeSnapshot_recvMsgTime (s : State) :
    (takeSnapshot s).recvMsgTime = s.recvMsgTime := rfl
@[simp] theorem takeSnapshot_cursor (s : State) :
    (takeSnapshot s).cursor = s.cursor := rfl
@[simp] theorem takeSnapshot_slot (s : State) :
    (takeSnapshot s).slot = s.slot := rfl
@[simp] theorem takeSnapshot_enabled (s : State) :
    (takeSnapshot s).enabled = s.enabled := rfl
@[simp] theorem takeSnapshot_watchLine (s : State) :
    (takeSnapshot s).watchLine = s.watchLine := rfl
@[simp] theorem takeSnapshot_call (s : State) :
    (takeSnapshot s).call = .snapshot s.cursor := rfl
@[simp] theorem takeSnapshot_handlerPort (s : State) :
    (takeSnapshot s).handlerPort = s.handlerPort := rfl
@[simp] theorem takeSnapshot_foregroundPort (s : State) :
    (takeSnapshot s).foregroundPort = s.foregroundPort := rfl
@[simp] theorem takeSnapshot_edgeOutcome (s : State) :
    (takeSnapshot s).edgeOutcome = s.edgeOutcome := rfl
@[simp] theorem takeSnapshot_handlerResponse (s : State) :
    (takeSnapshot s).handlerResponse = s.handlerResponse := rfl
@[simp] theorem takeSnapshot_response (s : State) :
    (takeSnapshot s).response = s.response := rfl

/-! State.write -/

@[simp] theorem write_lastLevelIndex (s : State) {w : Nat} (i : SlotIndex) (f : SlotField w) (v : BitVec w) :
    (s.write i f v).lastLevelIndex = s.lastLevelIndex := rfl
@[simp] theorem write_lastHalfBitTime (s : State) {w : Nat} (i : SlotIndex) (f : SlotField w) (v : BitVec w) :
    (s.write i f v).lastHalfBitTime = s.lastHalfBitTime := rfl
@[simp] theorem write_lastFlipTime (s : State) {w : Nat} (i : SlotIndex) (f : SlotField w) (v : BitVec w) :
    (s.write i f v).lastFlipTime = s.lastFlipTime := rfl
@[simp] theorem write_lastErrorAtLevelIndex (s : State) {w : Nat} (i : SlotIndex) (f : SlotField w) (v : BitVec w) :
    (s.write i f v).lastErrorAtLevelIndex = s.lastErrorAtLevelIndex := rfl
@[simp] theorem write_requestTinyErrorLevel (s : State) {w : Nat} (i : SlotIndex) (f : SlotField w) (v : BitVec w) :
    (s.write i f v).requestTinyErrorLevel = s.requestTinyErrorLevel := rfl
@[simp] theorem write_lastMsgTime (s : State) {w : Nat} (i : SlotIndex) (f : SlotField w) (v : BitVec w) :
    (s.write i f v).lastMsgTime = s.lastMsgTime := rfl
@[simp] theorem write_recvMsgTime (s : State) {w : Nat} (i : SlotIndex) (f : SlotField w) (v : BitVec w) :
    (s.write i f v).recvMsgTime = s.recvMsgTime := rfl
@[simp] theorem write_cursor (s : State) {w : Nat} (i : SlotIndex) (f : SlotField w) (v : BitVec w) :
    (s.write i f v).cursor = s.cursor := rfl
@[simp] theorem write_slot (s : State) {w : Nat} (i : SlotIndex) (f : SlotField w) (v : BitVec w) :
    (s.write i f v).slot = memWrite s.slot i f v := rfl
@[simp] theorem write_enabled (s : State) {w : Nat} (i : SlotIndex) (f : SlotField w) (v : BitVec w) :
    (s.write i f v).enabled = s.enabled := rfl
@[simp] theorem write_watchLine (s : State) {w : Nat} (i : SlotIndex) (f : SlotField w) (v : BitVec w) :
    (s.write i f v).watchLine = s.watchLine := rfl
@[simp] theorem write_call (s : State) {w : Nat} (i : SlotIndex) (f : SlotField w) (v : BitVec w) :
    (s.write i f v).call = s.call := rfl
@[simp] theorem write_handlerPort (s : State) {w : Nat} (i : SlotIndex) (f : SlotField w) (v : BitVec w) :
    (s.write i f v).handlerPort = s.handlerPort := rfl
@[simp] theorem write_foregroundPort (s : State) {w : Nat} (i : SlotIndex) (f : SlotField w) (v : BitVec w) :
    (s.write i f v).foregroundPort = s.foregroundPort := rfl
@[simp] theorem write_edgeOutcome (s : State) {w : Nat} (i : SlotIndex) (f : SlotField w) (v : BitVec w) :
    (s.write i f v).edgeOutcome = s.edgeOutcome := rfl
@[simp] theorem write_handlerResponse (s : State) {w : Nat} (i : SlotIndex) (f : SlotField w) (v : BitVec w) :
    (s.write i f v).handlerResponse = s.handlerResponse := rfl
@[simp] theorem write_response (s : State) {w : Nat} (i : SlotIndex) (f : SlotField w) (v : BitVec w) :
    (s.write i f v).response = s.response := rfl

/-! resetDecoder -/

@[simp] theorem resetDecoder_lastLevelIndex (s : State) :
    (resetDecoder s).lastLevelIndex = .gap := rfl
@[simp] theorem resetDecoder_lastHalfBitTime (s : State) :
    (resetDecoder s).lastHalfBitTime = 0 := rfl
@[simp] theorem resetDecoder_lastFlipTime (s : State) :
    (resetDecoder s).lastFlipTime = 0 := rfl
@[simp] theorem resetDecoder_lastErrorAtLevelIndex (s : State) :
    (resetDecoder s).lastErrorAtLevelIndex = 0 := rfl
@[simp] theorem resetDecoder_requestTinyErrorLevel (s : State) :
    (resetDecoder s).requestTinyErrorLevel = false := rfl
@[simp] theorem resetDecoder_lastMsgTime (s : State) :
    (resetDecoder s).lastMsgTime = 0 := rfl
@[simp] theorem resetDecoder_recvMsgTime (s : State) :
    (resetDecoder s).recvMsgTime = 0 := rfl
@[simp] theorem resetDecoder_cursor (s : State) :
    (resetDecoder s).cursor = 0 := rfl
@[simp] theorem resetDecoder_slot (s : State) :
    (resetDecoder s).slot = Store.zero := rfl
@[simp] theorem resetDecoder_enabled (s : State) :
    (resetDecoder s).enabled = s.enabled := rfl
@[simp] theorem resetDecoder_watchLine (s : State) :
    (resetDecoder s).watchLine = s.watchLine := rfl
@[simp] theorem resetDecoder_call (s : State) :
    (resetDecoder s).call = s.call := rfl
@[simp] theorem resetDecoder_handlerPort (s : State) :
    (resetDecoder s).handlerPort = s.handlerPort := rfl
@[simp] theorem resetDecoder_foregroundPort (s : State) :
    (resetDecoder s).foregroundPort = s.foregroundPort := rfl
@[simp] theorem resetDecoder_edgeOutcome (s : State) :
    (resetDecoder s).edgeOutcome = s.edgeOutcome := rfl
@[simp] theorem resetDecoder_handlerResponse (s : State) :
    (resetDecoder s).handlerResponse = s.handlerResponse := rfl
@[simp] theorem resetDecoder_response (s : State) :
    (resetDecoder s).response = s.response := rfl

/-! startLine -/

@[simp] theorem startLine_lastLevelIndex (s : State) (n : Byte) (ok : Bool) :
    (startLine n ok s).lastLevelIndex = s.lastLevelIndex := rfl
@[simp] theorem startLine_lastHalfBitTime (s : State) (n : Byte) (ok : Bool) :
    (startLine n ok s).lastHalfBitTime = s.lastHalfBitTime := rfl
@[simp] theorem startLine_lastFlipTime (s : State) (n : Byte) (ok : Bool) :
    (startLine n ok s).lastFlipTime = s.lastFlipTime := rfl
@[simp] theorem startLine_lastErrorAtLevelIndex (s : State) (n : Byte) (ok : Bool) :
    (startLine n ok s).lastErrorAtLevelIndex = s.lastErrorAtLevelIndex := rfl
@[simp] theorem startLine_requestTinyErrorLevel (s : State) (n : Byte) (ok : Bool) :
    (startLine n ok s).requestTinyErrorLevel = s.requestTinyErrorLevel := rfl
@[simp] theorem startLine_lastMsgTime (s : State) (n : Byte) (ok : Bool) :
    (startLine n ok s).lastMsgTime = s.lastMsgTime := rfl
@[simp] theorem startLine_recvMsgTime (s : State) (n : Byte) (ok : Bool) :
    (startLine n ok s).recvMsgTime = s.recvMsgTime := rfl
@[simp] theorem startLine_cursor (s : State) (n : Byte) (ok : Bool) :
    (startLine n ok s).cursor = s.cursor := rfl
@[simp] theorem startLine_slot (s : State) (n : Byte) (ok : Bool) :
    (startLine n ok s).slot = s.slot := rfl
@[simp] theorem startLine_enabled (s : State) (n : Byte) (ok : Bool) :
    (startLine n ok s).enabled = (ok || s.enabled) := rfl
@[simp] theorem startLine_watchLine (s : State) (n : Byte) (ok : Bool) :
    (startLine n ok s).watchLine = if ok then n else s.watchLine := rfl
@[simp] theorem startLine_call (s : State) (n : Byte) (ok : Bool) :
    (startLine n ok s).call = s.call := rfl
@[simp] theorem startLine_handlerPort (s : State) (n : Byte) (ok : Bool) :
    (startLine n ok s).handlerPort = s.handlerPort := rfl
@[simp] theorem startLine_foregroundPort (s : State) (n : Byte) (ok : Bool) :
    (startLine n ok s).foregroundPort = s.foregroundPort := rfl
@[simp] theorem startLine_edgeOutcome (s : State) (n : Byte) (ok : Bool) :
    (startLine n ok s).edgeOutcome = s.edgeOutcome := rfl
@[simp] theorem startLine_handlerResponse (s : State) (n : Byte) (ok : Bool) :
    (startLine n ok s).handlerResponse = s.handlerResponse := rfl
@[simp] theorem startLine_response (s : State) (n : Byte) (ok : Bool) :
    (startLine n ok s).response = s.response := rfl

/-! stopLine -/

@[simp] theorem stopLine_lastLevelIndex (s : State) (ok : Bool) :
    (stopLine ok s).lastLevelIndex = s.lastLevelIndex := rfl
@[simp] theorem stopLine_lastHalfBitTime (s : State) (ok : Bool) :
    (stopLine ok s).lastHalfBitTime = s.lastHalfBitTime := rfl
@[simp] theorem stopLine_lastFlipTime (s : State) (ok : Bool) :
    (stopLine ok s).lastFlipTime = s.lastFlipTime := rfl
@[simp] theorem stopLine_lastErrorAtLevelIndex (s : State) (ok : Bool) :
    (stopLine ok s).lastErrorAtLevelIndex = s.lastErrorAtLevelIndex := rfl
@[simp] theorem stopLine_requestTinyErrorLevel (s : State) (ok : Bool) :
    (stopLine ok s).requestTinyErrorLevel = s.requestTinyErrorLevel := rfl
@[simp] theorem stopLine_lastMsgTime (s : State) (ok : Bool) :
    (stopLine ok s).lastMsgTime = s.lastMsgTime := rfl
@[simp] theorem stopLine_recvMsgTime (s : State) (ok : Bool) :
    (stopLine ok s).recvMsgTime = s.recvMsgTime := rfl
@[simp] theorem stopLine_cursor (s : State) (ok : Bool) :
    (stopLine ok s).cursor = s.cursor := rfl
@[simp] theorem stopLine_slot (s : State) (ok : Bool) :
    (stopLine ok s).slot = s.slot := rfl
@[simp] theorem stopLine_enabled (s : State) (ok : Bool) :
    (stopLine ok s).enabled = (!ok && s.enabled) := rfl
@[simp] theorem stopLine_watchLine (s : State) (ok : Bool) :
    (stopLine ok s).watchLine = s.watchLine := rfl
@[simp] theorem stopLine_call (s : State) (ok : Bool) :
    (stopLine ok s).call = s.call := rfl
@[simp] theorem stopLine_handlerPort (s : State) (ok : Bool) :
    (stopLine ok s).handlerPort = s.handlerPort := rfl
@[simp] theorem stopLine_foregroundPort (s : State) (ok : Bool) :
    (stopLine ok s).foregroundPort = s.foregroundPort := rfl
@[simp] theorem stopLine_edgeOutcome (s : State) (ok : Bool) :
    (stopLine ok s).edgeOutcome = s.edgeOutcome := rfl
@[simp] theorem stopLine_handlerResponse (s : State) (ok : Bool) :
    (stopLine ok s).handlerResponse = s.handlerResponse := rfl
@[simp] theorem stopLine_response (s : State) (ok : Bool) :
    (stopLine ok s).response = s.response := rfl

/-! rejectWord -/

@[simp] theorem rejectWord_lastLevelIndex (s : State) :
    (rejectWord s).lastLevelIndex = s.lastLevelIndex := rfl
@[simp] theorem rejectWord_lastHalfBitTime (s : State) :
    (rejectWord s).lastHalfBitTime = s.lastHalfBitTime := rfl
@[simp] theorem rejectWord_lastFlipTime (s : State) :
    (rejectWord s).lastFlipTime = s.lastFlipTime := rfl
@[simp] theorem rejectWord_lastErrorAtLevelIndex (s : State) :
    (rejectWord s).lastErrorAtLevelIndex = s.lastErrorAtLevelIndex := rfl
@[simp] theorem rejectWord_requestTinyErrorLevel (s : State) :
    (rejectWord s).requestTinyErrorLevel = s.requestTinyErrorLevel := rfl
@[simp] theorem rejectWord_lastMsgTime (s : State) :
    (rejectWord s).lastMsgTime = s.lastMsgTime := rfl
@[simp] theorem rejectWord_recvMsgTime (s : State) :
    (rejectWord s).recvMsgTime = s.recvMsgTime := rfl
@[simp] theorem rejectWord_cursor (s : State) :
    (rejectWord s).cursor = s.cursor := rfl
@[simp] theorem rejectWord_slot (s : State) :
    (rejectWord s).slot = s.slot := rfl
@[simp] theorem rejectWord_enabled (s : State) :
    (rejectWord s).enabled = s.enabled := rfl
@[simp] theorem rejectWord_watchLine (s : State) :
    (rejectWord s).watchLine = s.watchLine := rfl
@[simp] theorem rejectWord_call (s : State) :
    (rejectWord s).call = s.call := rfl
@[simp] theorem rejectWord_handlerPort (s : State) :
    (rejectWord s).handlerPort = s.handlerPort := rfl
@[simp] theorem rejectWord_foregroundPort (s : State) :
    (rejectWord s).foregroundPort = s.foregroundPort := rfl
@[simp] theorem rejectWord_edgeOutcome (s : State) :
    (rejectWord s).edgeOutcome = s.edgeOutcome := rfl
@[simp] theorem rejectWord_handlerResponse (s : State) :
    (rejectWord s).handlerResponse = s.handlerResponse := rfl
@[simp] theorem rejectWord_response (s : State) :
    (rejectWord s).response = some respIllegal := rfl

/-! raiseSoft -/

@[simp] theorem raiseSoft_lastLevelIndex (s : State) (t : Time) :
    (raiseSoft t s).lastLevelIndex = s.lastLevelIndex := rfl
@[simp] theorem raiseSoft_lastHalfBitTime (s : State) (t : Time) :
    (raiseSoft t s).lastHalfBitTime = s.lastHalfBitTime := rfl
@[simp] theorem raiseSoft_lastFlipTime (s : State) (t : Time) :
    (raiseSoft t s).lastFlipTime = t := rfl
@[simp] theorem raiseSoft_lastErrorAtLevelIndex (s : State) (t : Time) :
    (raiseSoft t s).lastErrorAtLevelIndex = s.lastErrorAtLevelIndex := rfl
@[simp] theorem raiseSoft_requestTinyErrorLevel (s : State) (t : Time) :
    (raiseSoft t s).requestTinyErrorLevel = true := rfl
@[simp] theorem raiseSoft_lastMsgTime (s : State) (t : Time) :
    (raiseSoft t s).lastMsgTime = s.lastMsgTime := rfl
@[simp] theorem raiseSoft_recvMsgTime (s : State) (t : Time) :
    (raiseSoft t s).recvMsgTime = s.recvMsgTime := rfl
@[simp] theorem raiseSoft_cursor (s : State) (t : Time) :
    (raiseSoft t s).cursor = s.cursor := rfl
@[simp] theorem raiseSoft_slot (s : State) (t : Time) :
    (raiseSoft t s).slot = s.slot := rfl
@[simp] theorem raiseSoft_enabled (s : State) (t : Time) :
    (raiseSoft t s).enabled = s.enabled := rfl
@[simp] theorem raiseSoft_watchLine (s : State) (t : Time) :
    (raiseSoft t s).watchLine = s.watchLine := rfl
@[simp] theorem raiseSoft_call (s : State) (t : Time) :
    (raiseSoft t s).call = s.call := rfl
@[simp] theorem raiseSoft_handlerPort (s : State) (t : Time) :
    (raiseSoft t s).handlerPort = s.handlerPort := rfl
@[simp] theorem raiseSoft_foregroundPort (s : State) (t : Time) :
    (raiseSoft t s).foregroundPort = s.foregroundPort := rfl
@[simp] theorem raiseSoft_edgeOutcome (s : State) (t : Time) :
    (raiseSoft t s).edgeOutcome = some .softError := rfl
@[simp] theorem raiseSoft_handlerResponse (s : State) (t : Time) :
    (raiseSoft t s).handlerResponse = some respZero := rfl
@[simp] theorem raiseSoft_response (s : State) (t : Time) :
    (raiseSoft t s).response = s.response := rfl

/-! raiseHard -/

@[simp] theorem raiseHard_lastLevelIndex (s : State) (t : Time) :
    (raiseHard t s).lastLevelIndex = .gap := rfl
@[simp] theorem raiseHard_lastHalfBitTime (s : State) (t : Time) :
    (raiseHard t s).lastHalfBitTime = s.lastHalfBitTime := rfl
@[simp] theorem raiseHard_lastFlipTime (s : State) (t : Time) :
    (raiseHard t s).lastFlipTime = t := rfl
@[simp] theorem raiseHard_lastErrorAtLevelIndex (s : State) (t : Time) :
    (raiseHard t s).lastErrorAtLevelIndex = s.lastLevelIndex.toByte := rfl
@[simp] theorem raiseHard_requestTinyErrorLevel (s : State) (t : Time) :
    (raiseHard t s).requestTinyErrorLevel = s.requestTinyErrorLevel := rfl
@[simp] theorem raiseHard_lastMsgTime (s : State) (t : Time) :
    (raiseHard t s).lastMsgTime = s.lastMsgTime := rfl
@[simp] theorem raiseHard_recvMsgTime (s : State) (t : Time) :
    (raiseHard t s).recvMsgTime = s.recvMsgTime := rfl
@[simp] theorem raiseHard_cursor (s : State) (t : Time) :
    (raiseHard t s).cursor = s.cursor := rfl
@[simp] theorem raiseHard_slot (s : State) (t : Time) :
    (raiseHard t s).slot = s.slot := rfl
@[simp] theorem raiseHard_enabled (s : State) (t : Time) :
    (raiseHard t s).enabled = s.enabled := rfl
@[simp] theorem raiseHard_watchLine (s : State) (t : Time) :
    (raiseHard t s).watchLine = s.watchLine := rfl
@[simp] theorem raiseHard_call (s : State) (t : Time) :
    (raiseHard t s).call = s.call := rfl
@[simp] theorem raiseHard_handlerPort (s : State) (t : Time) :
    (raiseHard t s).handlerPort = s.handlerPort := rfl
@[simp] theorem raiseHard_foregroundPort (s : State) (t : Time) :
    (raiseHard t s).foregroundPort = s.foregroundPort := rfl
@[simp] theorem raiseHard_edgeOutcome (s : State) (t : Time) :
    (raiseHard t s).edgeOutcome = some .hardError := rfl
@[simp] theorem raiseHard_handlerResponse (s : State) (t : Time) :
    (raiseHard t s).handlerResponse = some respZero := rfl
@[simp] theorem raiseHard_response (s : State) (t : Time) :
    (raiseHard t s).response = s.response := rfl

/-! edgeAdvance -/

@[simp] theorem edgeAdvance_lastLevelIndex (s : State) (t : Time) (n : LevelIndex) :
    (edgeAdvance t n s).lastLevelIndex = n := rfl
@[simp] theorem edgeAdvance_lastHalfBitTime (s : State) (t : Time) (n : LevelIndex) :
    (edgeAdvance t n s).lastHalfBitTime = t := rfl
@[simp] theorem edgeAdvance_lastFlipTime (s : State) (t : Time) (n : LevelIndex) :
    (edgeAdvance t n s).lastFlipTime = t := rfl
@[simp] theorem edgeAdvance_lastErrorAtLevelIndex (s : State) (t : Time) (n : LevelIndex) :
    (edgeAdvance t n s).lastErrorAtLevelIndex = s.lastErrorAtLevelIndex := rfl
@[simp] theorem edgeAdvance_requestTinyErrorLevel (s : State) (t : Time) (n : LevelIndex) :
    (edgeAdvance t n s).requestTinyErrorLevel = s.requestTinyErrorLevel := rfl
@[simp] theorem edgeAdvance_lastMsgTime (s : State) (t : Time) (n : LevelIndex) :
    (edgeAdvance t n s).lastMsgTime = s.lastMsgTime := rfl
@[simp] theorem edgeAdvance_recvMsgTime (s : State) (t : Time) (n : LevelIndex) :
    (edgeAdvance t n s).recvMsgTime = s.recvMsgTime := rfl
@[simp] theorem edgeAdvance_cursor (s : State) (t : Time) (n : LevelIndex) :
    (edgeAdvance t n s).cursor = s.cursor := rfl
@[simp] theorem edgeAdvance_slot (s : State) (t : Time) (n : LevelIndex) :
    (edgeAdvance t n s).slot = s.slot := rfl
@[simp] theorem edgeAdvance_enabled (s : State) (t : Time) (n : LevelIndex) :
    (edgeAdvance t n s).enabled = s.enabled := rfl
@[simp] theorem edgeAdvance_watchLine (s : State) (t : Time) (n : LevelIndex) :
    (edgeAdvance t n s).watchLine = s.watchLine := rfl
@[simp] theorem edgeAdvance_call (s : State) (t : Time) (n : LevelIndex) :
    (edgeAdvance t n s).call = s.call := rfl
@[simp] theorem edgeAdvance_handlerPort (s : State) (t : Time) (n : LevelIndex) :
    (edgeAdvance t n s).handlerPort = s.handlerPort := rfl
@[simp] theorem edgeAdvance_foregroundPort (s : State) (t : Time) (n : LevelIndex) :
    (edgeAdvance t n s).foregroundPort = s.foregroundPort := rfl
@[simp] theorem edgeAdvance_edgeOutcome (s : State) (t : Time) (n : LevelIndex) :
    (edgeAdvance t n s).edgeOutcome = some .continues := rfl
@[simp] theorem edgeAdvance_handlerResponse (s : State) (t : Time) (n : LevelIndex) :
    (edgeAdvance t n s).handlerResponse = some respZero := rfl
@[simp] theorem edgeAdvance_response (s : State) (t : Time) (n : LevelIndex) :
    (edgeAdvance t n s).response = s.response := rfl

/-! edgeBegin -/

@[simp] theorem edgeBegin_lastLevelIndex (s : State) (t : Time) :
    (edgeBegin t s).lastLevelIndex = .half 0 := rfl
@[simp] theorem edgeBegin_lastHalfBitTime (s : State) (t : Time) :
    (edgeBegin t s).lastHalfBitTime = t := rfl
@[simp] theorem edgeBegin_lastFlipTime (s : State) (t : Time) :
    (edgeBegin t s).lastFlipTime = t := rfl
@[simp] theorem edgeBegin_lastErrorAtLevelIndex (s : State) (t : Time) :
    (edgeBegin t s).lastErrorAtLevelIndex = s.lastErrorAtLevelIndex := rfl
@[simp] theorem edgeBegin_requestTinyErrorLevel (s : State) (t : Time) :
    (edgeBegin t s).requestTinyErrorLevel = s.requestTinyErrorLevel := rfl
@[simp] theorem edgeBegin_lastMsgTime (s : State) (t : Time) :
    (edgeBegin t s).lastMsgTime = s.lastMsgTime := rfl
@[simp] theorem edgeBegin_recvMsgTime (s : State) (t : Time) :
    (edgeBegin t s).recvMsgTime = t := rfl
@[simp] theorem edgeBegin_cursor (s : State) (t : Time) :
    (edgeBegin t s).cursor = s.cursor := rfl
@[simp] theorem edgeBegin_slot (s : State) (t : Time) :
    (edgeBegin t s).slot = 
      memWrite (memWrite (memWrite (memWrite s.slot s.cursor .gapTime (gapUnits t s.lastMsgTime))
        s.cursor .lenTime 0) s.cursor .cmd 0) s.cursor .adr 0 := rfl
@[simp] theorem edgeBegin_enabled (s : State) (t : Time) :
    (edgeBegin t s).enabled = s.enabled := rfl
@[simp] theorem edgeBegin_watchLine (s : State) (t : Time) :
    (edgeBegin t s).watchLine = s.watchLine := rfl
@[simp] theorem edgeBegin_call (s : State) (t : Time) :
    (edgeBegin t s).call = s.call := rfl
@[simp] theorem edgeBegin_handlerPort (s : State) (t : Time) :
    (edgeBegin t s).handlerPort = s.handlerPort := rfl
@[simp] theorem edgeBegin_foregroundPort (s : State) (t : Time) :
    (edgeBegin t s).foregroundPort = s.foregroundPort := rfl
@[simp] theorem edgeBegin_edgeOutcome (s : State) (t : Time) :
    (edgeBegin t s).edgeOutcome = some .continues := rfl
@[simp] theorem edgeBegin_handlerResponse (s : State) (t : Time) :
    (edgeBegin t s).handlerResponse = some respZero := rfl
@[simp] theorem edgeBegin_response (s : State) (t : Time) :
    (edgeBegin t s).response = s.response := rfl

/-! edgeCommit -/

@[simp] theorem edgeCommit_lastLevelIndex (s : State) (t : Time) :
    (edgeCommit t s).lastLevelIndex = .gap := rfl
@[simp] theorem edgeCommit_lastHalfBitTime (s : State) (t : Time) :
    (edgeCommit t s).lastHalfBitTime = t := rfl
@[simp] theorem edgeCommit_lastFlipTime (s : State) (t : Time) :
    (edgeCommit t s).lastFlipTime = t := rfl
@[simp] theorem edgeCommit_lastErrorAtLevelIndex (s : State) (t : Time) :
    (edgeCommit t s).lastErrorAtLevelIndex = s.lastErrorAtLevelIndex := rfl
@[simp] theorem edgeCommit_requestTinyErrorLevel (s : State) (t : Time) :
    (edgeCommit t s).requestTinyErrorLevel = s.requestTinyErrorLevel := rfl
@[simp] theorem edgeCommit_lastMsgTime (s : State) (t : Time) :
    (edgeCommit t s).lastMsgTime = t := rfl
@[simp] theorem edgeCommit_recvMsgTime (s : State) (t : Time) :
    (edgeCommit t s).recvMsgTime = s.recvMsgTime := rfl
@[simp] theorem edgeCommit_cursor (s : State) (t : Time) :
    (edgeCommit t s).cursor = s.cursor + 1 := rfl
@[simp] theorem edgeCommit_slot (s : State) (t : Time) :
    (edgeCommit t s).slot = memWrite s.slot s.cursor .lenTime (low16 (sub32 t s.recvMsgTime)) := rfl
@[simp] theorem edgeCommit_enabled (s : State) (t : Time) :
    (edgeCommit t s).enabled = s.enabled := rfl
@[simp] theorem edgeCommit_watchLine (s : State) (t : Time) :
    (edgeCommit t s).watchLine = s.watchLine := rfl
@[simp] theorem edgeCommit_call (s : State) (t : Time) :
    (edgeCommit t s).call = s.call := rfl
@[simp] theorem edgeCommit_handlerPort (s : State) (t : Time) :
    (edgeCommit t s).handlerPort = s.handlerPort := rfl
@[simp] theorem edgeCommit_foregroundPort (s : State) (t : Time) :
    (edgeCommit t s).foregroundPort = s.foregroundPort := rfl
@[simp] theorem edgeCommit_edgeOutcome (s : State) (t : Time) :
    (edgeCommit t s).edgeOutcome = some .messageCommitted := rfl
@[simp] theorem edgeCommit_handlerResponse (s : State) (t : Time) :
    (edgeCommit t s).handlerResponse = some respZero := rfl
@[simp] theorem edgeCommit_response (s : State) (t : Time) :
    (edgeCommit t s).response = s.response := rfl

/-! packBit -/

@[simp] theorem packBit_lastLevelIndex (s : State) (k : Nat) (b : Bool) :
    (packBit k b s).lastLevelIndex = s.lastLevelIndex := by simp only [packBit]; split <;> rfl
@[simp] theorem packBit_lastHalfBitTime (s : State) (k : Nat) (b : Bool) :
    (packBit k b s).lastHalfBitTime = s.lastHalfBitTime := by simp only [packBit]; split <;> rfl
@[simp] theorem packBit_lastFlipTime (s : State) (k : Nat) (b : Bool) :
    (packBit k b s).lastFlipTime = s.lastFlipTime := by simp only [packBit]; split <;> rfl
@[simp] theorem packBit_lastErrorAtLevelIndex (s : State) (k : Nat) (b : Bool) :
    (packBit k b s).lastErrorAtLevelIndex = s.lastErrorAtLevelIndex := by simp only [packBit]; split <;> rfl
@[simp] theorem packBit_requestTinyErrorLevel (s : State) (k : Nat) (b : Bool) :
    (packBit k b s).requestTinyErrorLevel = s.requestTinyErrorLevel := by simp only [packBit]; split <;> rfl
@[simp] theorem packBit_lastMsgTime (s : State) (k : Nat) (b : Bool) :
    (packBit k b s).lastMsgTime = s.lastMsgTime := by simp only [packBit]; split <;> rfl
@[simp] theorem packBit_recvMsgTime (s : State) (k : Nat) (b : Bool) :
    (packBit k b s).recvMsgTime = s.recvMsgTime := by simp only [packBit]; split <;> rfl
@[simp] theorem packBit_cursor (s : State) (k : Nat) (b : Bool) :
    (packBit k b s).cursor = s.cursor := by simp only [packBit]; split <;> rfl
@[simp] theorem packBit_enabled (s : State) (k : Nat) (b : Bool) :
    (packBit k b s).enabled = s.enabled := by simp only [packBit]; split <;> rfl
@[simp] theorem packBit_watchLine (s : State) (k : Nat) (b : Bool) :
    (packBit k b s).watchLine = s.watchLine := by simp only [packBit]; split <;> rfl
@[simp] theorem packBit_call (s : State) (k : Nat) (b : Bool) :
    (packBit k b s).call = s.call := by simp only [packBit]; split <;> rfl
@[simp] theorem packBit_handlerPort (s : State) (k : Nat) (b : Bool) :
    (packBit k b s).handlerPort = s.handlerPort := by simp only [packBit]; split <;> rfl
@[simp] theorem packBit_foregroundPort (s : State) (k : Nat) (b : Bool) :
    (packBit k b s).foregroundPort = s.foregroundPort := by simp only [packBit]; split <;> rfl
@[simp] theorem packBit_edgeOutcome (s : State) (k : Nat) (b : Bool) :
    (packBit k b s).edgeOutcome = s.edgeOutcome := by simp only [packBit]; split <;> rfl
@[simp] theorem packBit_handlerResponse (s : State) (k : Nat) (b : Bool) :
    (packBit k b s).handlerResponse = s.handlerResponse := by simp only [packBit]; split <;> rfl
@[simp] theorem packBit_response (s : State) (k : Nat) (b : Bool) :
    (packBit k b s).response = s.response := by simp only [packBit]; split <;> rfl

end Sys2Proof.Machine
end

