-- ==== Sys2Proof/Laws/Store.lean ====
section
/-! SUPPORT. The laws of the message store: reading after writing, equality by reading, and the store's form. -/

namespace Sys2Proof.Machine

theorem record_setRecord (m : Store) (i j : SlotIndex) (r : MessageRecord) :
    (m.setRecord i r).record j = if i = j then r else m.record j := by
  have h : (i.toNat = j.toNat) ↔ i = j := BitVec.toNat_inj
  simp only [Store.record, Store.setRecord, Fin.getElem_fin, BitVec.val_toFin, Vector.getElem_set, h]

@[simp] theorem record_setRecord_self (m : Store) (i : SlotIndex) (r : MessageRecord) :
    (m.setRecord i r).record i = r := by simp [record_setRecord]

theorem record_setRecord_ne (m : Store) {i j : SlotIndex} (r : MessageRecord) (h : i ≠ j) :
    (m.setRecord i r).record j = m.record j := by simp [record_setRecord, h]

/-- A field of a record after a field is set: the new value at that field, the old one elsewhere. -/
@[simp] theorem get_put_self {w : Nat} (r : MessageRecord) (f : SlotField w) (v : BitVec w) :
    (r.put f v).get f = v := by cases f <;> rfl

@[simp] theorem put_gapTime (r : MessageRecord) (v : Half) : r.put .gapTime v = { r with gapTime := v } := rfl
@[simp] theorem put_lenTime (r : MessageRecord) (v : Half) : r.put .lenTime v = { r with lenTime := v } := rfl
@[simp] theorem put_cmd (r : MessageRecord) (v : Byte) : r.put .cmd v = { r with cmd := v } := rfl
@[simp] theorem put_adr (r : MessageRecord) (v : Byte) : r.put .adr v = { r with adr := v } := rfl
@[simp] theorem get_gapTime (r : MessageRecord) : r.get .gapTime = r.gapTime := rfl
@[simp] theorem get_lenTime (r : MessageRecord) : r.get .lenTime = r.lenTime := rfl
@[simp] theorem get_cmd (r : MessageRecord) : r.get .cmd = r.cmd := rfl
@[simp] theorem get_adr (r : MessageRecord) : r.get .adr = r.adr := rfl

/-- A write leaves every other slot alone (20_memory R41). -/
theorem memRead_memWrite_ne {v w : Nat} (m : Store) {i j : SlotIndex} (f : SlotField v) (g : SlotField w) (x : BitVec v)
    (h : i ≠ j) : memRead (memWrite m i f x) j g = memRead m j g := by
  simp [memRead, memWrite, record_setRecord_ne _ _ h]

/-- A read after a write to the same location gives the value written (20_memory R41). -/
@[simp] theorem memRead_memWrite_self {w : Nat} (m : Store) (i : SlotIndex) (f : SlotField w) (x : BitVec w) :
    memRead (memWrite m i f x) i f = x := by simp [memRead, memWrite]

/-- The record of a slot after a write (20_memory R41). -/
theorem record_memWrite {w : Nat} (m : Store) (i j : SlotIndex) (f : SlotField w) (x : BitVec w) :
    (memWrite m i f x).record j = if i = j then (m.record i).put f x else m.record j := by
  simp [memWrite, record_setRecord]

/-- Two stores with the same four records are the same data. -/
theorem store_ext {m n : Store} (h : ∀ i, m.record i = n.record i) : m = n := by
  apply Vector.ext
  intro i hi
  have := h (BitVec.ofFin ⟨i, hi⟩)
  simpa [Store.record] using this

/-- Two stores that read alike at every location are the same data (assumption 2). -/
theorem store_eq_of_memRead {m n : Store} (h : ∀ (i : SlotIndex) (w : Nat) (f : SlotField w), memRead m i f = memRead n i f) :
    m = n := by
  apply store_ext
  intro i
  have h1 := h i _ .gapTime
  have h2 := h i _ .lenTime
  have h3 := h i _ .cmd
  have h4 := h i _ .adr
  simp only [memRead, get_gapTime, get_lenTime, get_cmd, get_adr] at h1 h2 h3 h4
  cases hm : m.record i
  cases hn : n.record i
  simp_all

/-- The form of the store, record by record. -/
theorem wf_iff (m : Store) :
    m.wf = true ↔ ∀ i, (m.record i).cmd.toNat ≤ 0x7F ∧ (m.record i).adr.toNat ≤ 0x1F := by
  simp only [Store.wf, List.all_eq_true, Bool.and_eq_true, decide_eq_true_eq]
  constructor
  · intro h i
    apply h
    revert i
    decide
  · intro h i _
    exact h i

/-- The form of a value that may be written to a field: 7 bits for `cmd`, 5 for `adr` (10_state R22, R23). -/
def FieldFits : {w : Nat} → SlotField w → BitVec w → Prop
  | _, .gapTime, _ => True
  | _, .lenTime, _ => True
  | _, .cmd, v => v.toNat ≤ 0x7F
  | _, .adr, v => v.toNat ≤ 0x1F

/-- A write of a value that fits its field keeps the store's form. -/
theorem memWrite_wf {w : Nat} {m : Store} {i : SlotIndex} {f : SlotField w} {v : BitVec w} (hm : m.wf = true)
    (hv : FieldFits f v) : (memWrite m i f v).wf = true := by
  rw [wf_iff] at hm ⊢
  intro j
  rw [record_memWrite]
  split
  · rename_i h
    subst h
    have := hm i
    cases f <;> simp_all [FieldFits]
  · exact hm j

/-- The store at reset is in its form. -/
theorem store_zero_wf : Store.zero.wf = true := by decide

@[simp] theorem record_zero (i : SlotIndex) : Store.zero.record i = MessageRecord.zero := by
  simp [Store.zero, Store.record]

end Sys2Proof.Machine
end

