-- ==== Sys2Proof/Laws/Edge.lean ====
section
/-! SUPPORT. Everything an EDGE can do, said once, with the spec's numbers: the inversion lemma that proofs about
EDGE cite instead of unfolding it (spec/40_edge_decoder.md R98). -/

namespace Sys2Proof.Machine

/-- The cases of an EDGE from `s` to `s'`: the rows of 40_edge_decoder R98 and the gate of 42_lifecycle_diag R144. -/
inductive EdgeCase (t : Time) (level : Bool) (s : State) : State → Prop where
  | gated (off : s.enabled = false) : EdgeCase t level s (s.endEdge .ignored)
  | idle (on : s.enabled = true) (idx : s.lastLevelIndex = .gap) (lv : level ≠ expectedLevel s.lastLevelIndex) :
      EdgeCase t level s (s.endEdge .ignored)
  | unexpectedSoft (on : s.enabled = true) (idx : s.lastLevelIndex ≠ .gap)
      (lv : level ≠ expectedLevel s.lastLevelIndex) (early : (t - s.lastFlipTime).toNat < 300)
      (clear : s.requestTinyErrorLevel = false) : EdgeCase t level s (raiseSoft t s)
  | unexpectedHard (on : s.enabled = true) (idx : s.lastLevelIndex ≠ .gap)
      (lv : level ≠ expectedLevel s.lastLevelIndex)
      (late : 300 ≤ (t - s.lastFlipTime).toNat ∨ s.requestTinyErrorLevel = true) :
      EdgeCase t level s (raiseHard t s)
  | begins (on : s.enabled = true) (idx : s.lastLevelIndex = .gap) (lv : level = expectedLevel s.lastLevelIndex) :
      EdgeCase t level s (edgeBegin t s.clearTinyError)
  | windowSoft (i : Fin 25) (on : s.enabled = true) (idx : s.lastLevelIndex = .half i)
      (lv : level = expectedLevel s.lastLevelIndex)
      (d : (t - s.lastHalfBitTime).toNat < if i.val = 0 then 1800 else 300) :
      EdgeCase t level s (raiseSoft t s.clearTinyError)
  | windowHard (i : Fin 25) (on : s.enabled = true) (idx : s.lastLevelIndex = .half i)
      (lv : level = expectedLevel s.lastLevelIndex)
      (d : (if i.val = 0 then 3000 else if i.val % 2 = 1 then 900 else 1500) < (t - s.lastHalfBitTime).toNat) :
      EdgeCase t level s (raiseHard t s.clearTinyError)
  | startBit (on : s.enabled = true) (idx : s.lastLevelIndex = .half 0)
      (lv : level = expectedLevel s.lastLevelIndex)
      (lo : 1800 ≤ (t - s.lastHalfBitTime).toNat) (hi : (t - s.lastHalfBitTime).toNat ≤ 3000) :
      EdgeCase t level s (edgeAdvance t (.half 1) s.clearTinyError)
  | inactive (i : Fin 25) (on : s.enabled = true) (idx : s.lastLevelIndex = .half i) (odd : i.val % 2 = 1)
      (lv : level = expectedLevel s.lastLevelIndex)
      (lo : 300 ≤ (t - s.lastHalfBitTime).toNat) (hi : (t - s.lastHalfBitTime).toNat ≤ 900) :
      EdgeCase t level s (edgeAdvance t (nextIndex i) s.clearTinyError)
  | dataBit (i : Fin 25) (on : s.enabled = true) (idx : s.lastLevelIndex = .half i) (pos : i.val ≠ 0)
      (even : i.val % 2 = 0) (last : i.val ≠ 24) (lv : level = expectedLevel s.lastLevelIndex)
      (lo : 300 ≤ (t - s.lastHalfBitTime).toNat) (hi : (t - s.lastHalfBitTime).toNat ≤ 1500) :
      EdgeCase t level s (edgeAdvance t (nextIndex i)
        (packBit (bitIndex i) (bitValue (t - s.lastHalfBitTime)) s.clearTinyError))
  | commit (on : s.enabled = true) (idx : s.lastLevelIndex = .half 24)
      (lv : level = expectedLevel s.lastLevelIndex)
      (lo : 300 ≤ (t - s.lastHalfBitTime).toNat) (hi : (t - s.lastHalfBitTime).toNat ≤ 1500) :
      EdgeCase t level s (edgeCommit t
        (packBit 11 (bitValue (t - s.lastHalfBitTime)) s.clearTinyError))

theorem startWindow_eq (d : Time) :
    startWindow d = if d.toNat < 1800 then .under else if 3000 < d.toNat then .over else .within := rfl

theorem inactiveWindow_eq (d : Time) :
    inactiveWindow d = if d.toNat < 300 then .under else if 900 < d.toNat then .over else .within := rfl

theorem dataWindow_eq (d : Time) :
    dataWindow d = if d.toNat < 300 then .under else if 1500 < d.toNat then .over else .within := rfl

theorem bitValue_eq (d : Time) : bitValue d = decide (900 ≤ d.toNat) := by
  simp only [bitValue, Config.zeroTime, Config.oneTime]
  by_cases h : d.toNat < 900
  · simp [h, Nat.not_le.mpr h]
  · simp [h, Nat.not_lt.mp h]

@[simp] theorem lastBitIndex_eq : lastBitIndex = 11 := rfl

theorem bitIndex_eq_eleven (i : Fin 25) : bitIndex i = 11 ↔ i.val = 24 := by
  simp only [bitIndex]; omega

theorem nextIndex_of_lt (i : Fin 25) (h : i.val + 1 < 25) : nextIndex i = .half ⟨i.val + 1, h⟩ := by
  simp [nextIndex, h]

theorem nextIndex_ne_gap (i : Fin 25) (h : i.val ≠ 24) : nextIndex i ≠ .gap := by
  rw [nextIndex_of_lt i (by omega)]; simp

@[simp] theorem expectedLevel_gap : expectedLevel .gap = false := rfl

theorem expectedLevel_odd (i : Fin 25) (h : i.val % 2 = 1) : expectedLevel (.half i) = false := by
  simp [expectedLevel, h, Config.irOn]

theorem expectedLevel_even (i : Fin 25) (h : i.val % 2 = 0) : expectedLevel (.half i) = true := by
  simp [expectedLevel, h, Config.irOn]

/-- Bit packing with the spec's numbers (40_edge_decoder R92). -/
theorem packBit_eq (k : Nat) (b : Bool) (s : State) :
    packBit k b s =
      if k < 7 then
        s.write s.cursor .cmd ((s.slot.record s.cursor).cmd ||| ((BitVec.ofBool b).setWidth 8 <<< k))
      else
        s.write s.cursor .adr ((s.slot.record s.cursor).adr ||| ((BitVec.ofBool b).setWidth 8 <<< (k - 7))) := rfl

/-- The unexpected-level test with the spec's numbers (40_edge_decoder R84). -/
theorem edgeUnexpected_eq (t : Time) (s : State) :
    edgeUnexpected t s =
      if (t - s.lastFlipTime).toNat < 300 ∧ s.requestTinyErrorLevel = false then raiseSoft t s
      else raiseHard t s := rfl

/-- A record with data bit `k` packed into it (40_edge_decoder R92). -/
def MessageRecord.withBit (r : MessageRecord) (k : Nat) (bit : Bool) : MessageRecord :=
  if k < 7 then { r with cmd := r.cmd ||| ((BitVec.ofBool bit).setWidth 8 <<< k) }
  else { r with adr := r.adr ||| ((BitVec.ofBool bit).setWidth 8 <<< (k - 7)) }

/-- Bit packing changes the record in progress only (40_edge_decoder R92). -/
theorem record_packBit (k : Nat) (b : Bool) (s : State) (j : SlotIndex) :
    (packBit k b s).slot.record j =
      if s.cursor = j then (s.slot.record s.cursor).withBit k b else s.slot.record j := by
  rw [packBit_eq]
  by_cases h : k < 7
  · simp [h, MessageRecord.withBit, record_memWrite]
  · simp [h, MessageRecord.withBit, record_memWrite]

/-- A message begin writes all four fields of the record in progress and no other (40_edge_decoder R88). -/
theorem record_edgeBegin (t : Time) (s : State) (j : SlotIndex) :
    (edgeBegin t s).slot.record j =
      if s.cursor = j then
        { gapTime := gapUnits t s.lastMsgTime, lenTime := 0, cmd := 0, adr := 0 }
      else s.slot.record j := by
  simp only [edgeBegin_slot, record_memWrite]
  split <;> simp

/-- A commit writes `lenTime` of the record in progress and nothing else in the store (40_edge_decoder R94). -/
theorem record_edgeCommit (t : Time) (s : State) (j : SlotIndex) :
    (edgeCommit t s).slot.record j =
      if s.cursor = j then
        { s.slot.record s.cursor with lenTime := low16 (t - s.recvMsgTime) }
      else s.slot.record j := by
  simp [record_memWrite, sub32]

/-! The evaluation of EDGE, one lemma for each branch of 40_edge_decoder R81. -/

theorem execEdge_gated {s : State} (off : s.enabled = false) (t : Time) (level : Bool) :
    exec (.edge t level) s = .next (s.endEdge .ignored) := by
  simp [exec, execEdge, off]

theorem execEdge_idle {t : Time} {level : Bool} {s : State} (on : s.enabled = true)
    (idx : s.lastLevelIndex = .gap) (lv : level ≠ expectedLevel s.lastLevelIndex) :
    exec (.edge t level) s = .next (s.endEdge .ignored) := by
  have h : s.lastLevelIndex = .gap ∧ level ≠ Config.irOn := by rw [idx] at lv; exact ⟨idx, lv⟩
  simp only [exec, execEdge, on, if_true, edgeDelivered]
  rw [if_pos h]

theorem execEdge_unexpected {t : Time} {level : Bool} {s : State} (on : s.enabled = true)
    (idx : s.lastLevelIndex ≠ .gap) (lv : level ≠ expectedLevel s.lastLevelIndex) :
    exec (.edge t level) s = .next (edgeUnexpected t s) := by
  simp only [exec, execEdge, on, if_true, edgeDelivered]
  rw [if_neg (fun h => idx h.1), if_pos lv]

theorem execEdge_normal {t : Time} {level : Bool} {s : State} (on : s.enabled = true)
    (lv : level = expectedLevel s.lastLevelIndex) : exec (.edge t level) s = .next (edgeNormal t s) := by
  have h : ¬ (s.lastLevelIndex = .gap ∧ level ≠ Config.irOn) := by
    rintro ⟨idx, h⟩
    rw [idx] at lv
    exact h lv
  simp only [exec, execEdge, on, if_true, edgeDelivered]
  rw [if_neg h, if_neg (by simp [lv])]

theorem edgeNormal_gap {s : State} (t : Time) (idx : s.lastLevelIndex = .gap) :
    edgeNormal t s = edgeBegin t s.clearTinyError := by
  simp [edgeNormal, idx]

theorem edgeNormal_zero {s : State} (t : Time) (idx : s.lastLevelIndex = .half 0) :
    edgeNormal t s = edgeStartBit t (t - s.lastHalfBitTime) s.clearTinyError := by
  simp [edgeNormal, idx, sub32]

theorem edgeNormal_odd {s : State} {i : Fin 25} (t : Time) (idx : s.lastLevelIndex = .half i) (odd : i.val % 2 = 1) :
    edgeNormal t s = edgeInactiveHalf t (t - s.lastHalfBitTime) i s.clearTinyError := by
  have h : i.val ≠ 0 := by omega
  simp only [edgeNormal, clearTinyError_lastLevelIndex, idx, sub32, h, if_false, odd, if_true]

theorem edgeNormal_even {s : State} {i : Fin 25} (t : Time) (idx : s.lastLevelIndex = .half i) (pos : i.val ≠ 0)
    (even : i.val % 2 = 0) : edgeNormal t s = edgeDataBit t (t - s.lastHalfBitTime) i s.clearTinyError := by
  have h : ¬ (i.val % 2 = 1) := by omega
  simp only [edgeNormal, clearTinyError_lastLevelIndex, idx, sub32, pos, if_false, h]

theorem edgeStartBit_under {d : Time} (t : Time) (s : State) (h : d.toNat < 1800) :
    edgeStartBit t d s = raiseSoft t s := by
  simp [edgeStartBit, startWindow_eq, h]

theorem edgeStartBit_over {d : Time} (t : Time) (s : State) (h : 3000 < d.toNat) :
    edgeStartBit t d s = raiseHard t s := by
  have u : ¬ (d.toNat < 1800) := by omega
  simp [edgeStartBit, startWindow_eq, u, h]

theorem edgeStartBit_within {d : Time} (t : Time) (s : State) (lo : 1800 ≤ d.toNat) (hi : d.toNat ≤ 3000) :
    edgeStartBit t d s = edgeAdvance t (.half 1) s := by
  simp [edgeStartBit, startWindow_eq, Nat.not_lt.mpr lo, Nat.not_lt.mpr hi]

theorem edgeInactiveHalf_under {d : Time} (t : Time) (i : Fin 25) (s : State) (h : d.toNat < 300) :
    edgeInactiveHalf t d i s = raiseSoft t s := by
  simp [edgeInactiveHalf, inactiveWindow_eq, h]

theorem edgeInactiveHalf_over {d : Time} (t : Time) (i : Fin 25) (s : State) (h : 900 < d.toNat) :
    edgeInactiveHalf t d i s = raiseHard t s := by
  have u : ¬ (d.toNat < 300) := by omega
  simp [edgeInactiveHalf, inactiveWindow_eq, u, h]

theorem edgeInactiveHalf_within {d : Time} (t : Time) (i : Fin 25) (s : State) (lo : 300 ≤ d.toNat)
    (hi : d.toNat ≤ 900) : edgeInactiveHalf t d i s = edgeAdvance t (nextIndex i) s := by
  simp [edgeInactiveHalf, inactiveWindow_eq, Nat.not_lt.mpr lo, Nat.not_lt.mpr hi]

theorem edgeDataBit_under {d : Time} (t : Time) (i : Fin 25) (s : State) (h : d.toNat < 300) :
    edgeDataBit t d i s = raiseSoft t s := by
  simp [edgeDataBit, dataWindow_eq, h]

theorem edgeDataBit_over {d : Time} (t : Time) (i : Fin 25) (s : State) (h : 1500 < d.toNat) :
    edgeDataBit t d i s = raiseHard t s := by
  have u : ¬ (d.toNat < 300) := by omega
  simp [edgeDataBit, dataWindow_eq, u, h]

theorem edgeDataBit_within {d : Time} {i : Fin 25} (t : Time) (s : State) (lo : 300 ≤ d.toNat)
    (hi : d.toNat ≤ 1500) (last : i.val ≠ 24) :
    edgeDataBit t d i s = edgeAdvance t (nextIndex i) (packBit (bitIndex i) (bitValue d) s) := by
  simp [edgeDataBit, dataWindow_eq, Nat.not_lt.mpr lo, Nat.not_lt.mpr hi, bitIndex_eq_eleven, last]

theorem edgeDataBit_commit {d : Time} (t : Time) (s : State) (lo : 300 ≤ d.toNat) (hi : d.toNat ≤ 1500) :
    edgeDataBit t d 24 s = edgeCommit t (packBit 11 (bitValue d) s) := by
  have h : bitIndex 24 = 11 := rfl
  simp [edgeDataBit, dataWindow_eq, Nat.not_lt.mpr lo, Nat.not_lt.mpr hi, h]

/-- EDGE does what its case says. -/
theorem exec_of_edgeCase {t : Time} {level : Bool} {s s' : State} (h : EdgeCase t level s s') :
    exec (.edge t level) s = .next s' := by
  cases h with
  | gated off => exact execEdge_gated off t level
  | idle on idx lv => exact execEdge_idle on idx lv
  | unexpectedSoft on idx lv early clear =>
    rw [execEdge_unexpected on idx lv, edgeUnexpected_eq, if_pos ⟨early, clear⟩]
  | unexpectedHard on idx lv late =>
    rw [execEdge_unexpected on idx lv, edgeUnexpected_eq, if_neg]
    rintro ⟨h1, h2⟩
    rcases late with h | h
    · omega
    · rw [h2] at h; cases h
  | begins on idx lv => rw [execEdge_normal on lv, edgeNormal_gap t idx]
  | windowSoft i on idx lv d =>
    rw [execEdge_normal on lv]
    by_cases h0 : i.val = 0
    · obtain rfl : i = 0 := Fin.ext h0
      rw [edgeNormal_zero t idx, edgeStartBit_under]
      simpa using d
    · rw [if_neg h0] at d
      by_cases odd : i.val % 2 = 1
      · rw [edgeNormal_odd t idx odd, edgeInactiveHalf_under _ _ _ d]
      · rw [edgeNormal_even t idx h0 (by omega), edgeDataBit_under _ _ _ d]
  | windowHard i on idx lv d =>
    rw [execEdge_normal on lv]
    by_cases h0 : i.val = 0
    · obtain rfl : i = 0 := Fin.ext h0
      rw [edgeNormal_zero t idx, edgeStartBit_over]
      simpa using d
    · rw [if_neg h0] at d
      by_cases odd : i.val % 2 = 1
      · rw [if_pos odd] at d
        rw [edgeNormal_odd t idx odd, edgeInactiveHalf_over _ _ _ d]
      · rw [if_neg odd] at d
        rw [edgeNormal_even t idx h0 (by omega), edgeDataBit_over _ _ _ d]
  | startBit on idx lv lo hi => rw [execEdge_normal on lv, edgeNormal_zero t idx, edgeStartBit_within _ _ lo hi]
  | inactive i on idx odd lv lo hi =>
    rw [execEdge_normal on lv, edgeNormal_odd t idx odd, edgeInactiveHalf_within _ _ _ lo hi]
  | dataBit i on idx pos even last lv lo hi =>
    rw [execEdge_normal on lv, edgeNormal_even t idx pos even, edgeDataBit_within _ _ lo hi last]
  | commit on idx lv lo hi =>
    rw [execEdge_normal on lv, edgeNormal_even t idx (by decide) (by decide), edgeDataBit_commit _ _ lo hi]

/-- EDGE always completes, and what it does is one of the cases. -/
theorem execEdge_cases (t : Time) (level : Bool) (s : State) :
    ∃ s', exec (.edge t level) s = .next s' ∧ EdgeCase t level s s' := by
  suffices h : ∃ s', EdgeCase t level s s' from ⟨_, exec_of_edgeCase h.choose_spec, h.choose_spec⟩
  by_cases on : s.enabled = true
  case neg => exact ⟨_, .gated (by simpa using on)⟩
  by_cases lv : level = expectedLevel s.lastLevelIndex
  · cases idx : s.lastLevelIndex with
    | gap => exact ⟨_, .begins on idx lv⟩
    | half i =>
      by_cases u : (t - s.lastHalfBitTime).toNat < if i.val = 0 then 1800 else 300
      · exact ⟨_, .windowSoft i on idx lv u⟩
      by_cases o : (if i.val = 0 then 3000 else if i.val % 2 = 1 then 900 else 1500) < (t - s.lastHalfBitTime).toNat
      · exact ⟨_, .windowHard i on idx lv o⟩
      by_cases h0 : i.val = 0
      · obtain rfl : i = 0 := Fin.ext h0
        simp only [if_pos h0] at u o
        exact ⟨_, .startBit on idx lv (by omega) (by omega)⟩
      · simp only [if_neg h0] at u o
        by_cases odd : i.val % 2 = 1
        · rw [if_pos odd] at o
          exact ⟨_, .inactive i on idx odd lv (by omega) (by omega)⟩
        · rw [if_neg odd] at o
          by_cases last : i.val = 24
          · obtain rfl : i = 24 := Fin.ext last
            exact ⟨_, .commit on idx lv (by omega) (by omega)⟩
          · exact ⟨_, .dataBit i on idx h0 (by omega) last lv (by omega) (by omega)⟩
  · by_cases idx : s.lastLevelIndex = .gap
    · exact ⟨_, .idle on idx lv⟩
    · by_cases h : (t - s.lastFlipTime).toNat < 300 ∧ s.requestTinyErrorLevel = false
      · exact ⟨_, .unexpectedSoft on idx lv h.1 h.2⟩
      · refine ⟨_, .unexpectedHard on idx lv ?_⟩
        by_cases c : s.requestTinyErrorLevel = true
        · exact .inr c
        · exact .inl (by simp only [Bool.not_eq_true] at c; simpa [c] using h)

/-- The next state of an EDGE is one of the cases. -/
theorem edgeCase_of_next {t : Time} {level : Bool} {s s' : State} (h : exec (.edge t level) s = .next s') :
    EdgeCase t level s s' := by
  obtain ⟨u, hu, hc⟩ := execEdge_cases t level s
  rw [hu] at h
  cases h
  exact hc

end Sys2Proof.Machine
end

