-- ==== Sys2Proof/Laws/PerInstr.lean ====
section
/-! SUPPORT. A statement made for each operation: its word is selected by its own row of the opcode table
(spec/30_encoding.md R62 and, for the reserved numbers, R67). -/

namespace Sys2Proof.Laws.RowSelected

/-- `W & mask == match` selects the row, for the word the operation is encoded as. -/
def Statement (i : Instr) : Prop := encode i &&& i.rowMask = i.rowMatch

/-- The upper bits of two fields side by side: a mask that takes the high field and nothing of the low one. -/
theorem append_and_high {n m : Nat} (a h : BitVec n) (b : BitVec m) :
    (a ++ b) &&& (h ++ (0 : BitVec m)) = (a &&& h) ++ (0 : BitVec m) := by
  apply BitVec.eq_of_getLsbD_eq
  intro k hk
  simp only [BitVec.getLsbD_and, BitVec.getLsbD_append]
  split <;> simp

theorem edge (t : Time) (l : Bool) : Statement (.edge t l) := by
  have h : encode (.edge t l) = (0 : BitVec 3) ++ (BitVec.ofBool l ++ t) := by
    simp only [encode, formatE]
    exact BitVec.append_assoc
  rw [Statement, h]
  exact append_and_high (0 : BitVec 3) 7 (BitVec.ofBool l ++ t)

theorem tryPop : Statement .tryPop := rfl

theorem init : Statement .init := rfl

theorem start (n : Byte) : Statement (.start n) :=
  append_and_high ((3 : BitVec 3) ++ (0 : BitVec 25)) 0xFFFFFFF n

theorem stop (n : Byte) : Statement (.stop n) :=
  append_and_high ((4 : BitVec 3) ++ (0 : BitVec 25)) 0xFFFFFFF n

theorem errIdx : Statement .errIdx := rfl

theorem reserved6 (p : BitVec 33) : Statement (.reserved6 p) := append_and_high (6 : BitVec 3) 7 p

theorem reserved7 (p : BitVec 33) : Statement (.reserved7 p) := append_and_high (7 : BitVec 3) 7 p

end Sys2Proof.Laws.RowSelected
end

