-- ==== Sys2Proof/Laws/TryPop.lean ====
section
/-! SUPPORT. Everything a micro-step of TRYPOP can do, said once (spec/41_message_reader.md R127). -/

namespace Sys2Proof.Machine

/-- The empty check with the spec's numbers (41_message_reader R123). -/
theorem checkLen_eq (c : SlotIndex) (s : State) :
    checkLen c s =
      if (s.slot.record (c + 3)).lenTime = 0 then s.endCall respZero
      else { s with call := .lenRead c (s.slot.record (c + 3)).lenTime } := rfl

/-- The first-press check with the spec's numbers (41_message_reader R124). -/
theorem checkGap_eq (c : SlotIndex) (l : Half) (s : State) :
    checkGap c l s =
      if 586 < (s.slot.record (c + 3)).gapTime.toNat then s.endCall respZero
      else { s with call := .gapRead c l (s.slot.record (c + 3)).gapTime } := rfl

/-- The mismatch check with the spec's numbers (41_message_reader R125). -/
theorem checkMatch_eq (c : SlotIndex) (l g : Half) (s : State) :
    checkMatch c l g s =
      if (s.slot.record (c + 3)).adr ≠ (s.slot.record (c + 2)).adr ∨
          (s.slot.record (c + 3)).cmd ≠ (s.slot.record (c + 2)).cmd then s.endCall respZero
      else { s with call := .matched c l g (s.slot.record (c + 3)).cmd (s.slot.record (c + 3)).adr } := rfl

/-- How many micro-steps a call has left at most: the sixth ends it. -/
def TryPopCall.remaining : TryPopCall → Nat
  | .idle => 0
  | .snapshot _ => 5
  | .lenRead _ _ => 4
  | .gapRead _ _ _ => 3
  | .matched _ _ _ _ _ => 2
  | .copied _ _ => 1

/-- The cases of a micro-step from `s` to `s'`. -/
inductive MicroCase (s : State) : State → Prop where
  | none (call : s.call = .idle) : MicroCase s s
  | noData (c : SlotIndex) (call : s.call = .snapshot c)
      (len : (s.slot.record (c + 3)).lenTime = 0) : MicroCase s (s.endCall respZero)
  | len (c : SlotIndex) (call : s.call = .snapshot c) (len : (s.slot.record (c + 3)).lenTime ≠ 0) :
      MicroCase s { s with call := .lenRead c (s.slot.record (c + 3)).lenTime }
  | firstPress (c : SlotIndex) (l : Half) (call : s.call = .lenRead c l)
      (gap : 586 < (s.slot.record (c + 3)).gapTime.toNat) : MicroCase s (s.endCall respZero)
  | gap (c : SlotIndex) (l : Half) (call : s.call = .lenRead c l)
      (gap : (s.slot.record (c + 3)).gapTime.toNat ≤ 586) :
      MicroCase s { s with call := .gapRead c l (s.slot.record (c + 3)).gapTime }
  | mismatch (c : SlotIndex) (l g : Half) (call : s.call = .gapRead c l g)
      (ne : (s.slot.record (c + 3)).adr ≠ (s.slot.record (c + 2)).adr ∨
        (s.slot.record (c + 3)).cmd ≠ (s.slot.record (c + 2)).cmd) : MicroCase s (s.endCall respZero)
  | agree (c : SlotIndex) (l g : Half) (call : s.call = .gapRead c l g)
      (adr : (s.slot.record (c + 3)).adr = (s.slot.record (c + 2)).adr)
      (cmd : (s.slot.record (c + 3)).cmd = (s.slot.record (c + 2)).cmd) :
      MicroCase s { s with call := .matched c l g (s.slot.record (c + 3)).cmd (s.slot.record (c + 3)).adr }
  | copy (c : SlotIndex) (l g : Half) (x y : Byte) (call : s.call = .matched c l g x y) :
      MicroCase s { s with call := .copied c { gapTime := g, lenTime := l, cmd := x, adr := y } }
  | deliver (c : SlotIndex) (m : MessageRecord) (call : s.call = .copied c m) :
      MicroCase s ((s.write (c + 3) .lenTime 0).endCall (respMessage m))

/-- What a micro-step does is one of the cases. -/
theorem microStep_cases (s : State) : MicroCase s (microStep s) := by
  unfold microStep
  cases call : s.call with
  | idle => exact .none call
  | snapshot c =>
    simp only [checkLen_eq]
    by_cases h : (s.slot.record (c + 3)).lenTime = 0
    · rw [if_pos h]; exact .noData c call h
    · rw [if_neg h]; exact .len c call h
  | lenRead c l =>
    simp only [checkGap_eq]
    by_cases h : 586 < (s.slot.record (c + 3)).gapTime.toNat
    · rw [if_pos h]; exact .firstPress c l call h
    · rw [if_neg h]; exact .gap c l call (by omega)
  | gapRead c l g =>
    simp only [checkMatch_eq]
    by_cases h : (s.slot.record (c + 3)).adr ≠ (s.slot.record (c + 2)).adr ∨
        (s.slot.record (c + 3)).cmd ≠ (s.slot.record (c + 2)).cmd
    · rw [if_pos h]; exact .mismatch c l g call h
    · rw [if_neg h]
      simp only [not_or, ne_eq, not_not] at h
      exact .agree c l g call h.1 h.2
  | matched c l g x y => exact .copy c l g x y call
  | copied c m => exact .deliver c m call

/-- Without a call a micro-step does nothing. -/
theorem microStep_idle {s : State} (h : s.call = .idle) : microStep s = s := by
  simp [microStep, h]

/-- A micro-step touches neither port, and no register of the decoder or of the lifecycle (41_message_reader R120). -/
theorem microCase_frame {s s' : State} (h : MicroCase s s') :
    s' = { s with slot := s'.slot, call := s'.call, response := s'.response } := by
  cases h <;> rfl

/-- A micro-step does not look at the handler port. -/
theorem microStep_withHandlerPort (s : State) (port : List (Option EdgeEvent)) :
    microStep { s with handlerPort := port } = { microStep s with handlerPort := port } := by
  unfold microStep
  cases h : s.call with
  | idle => simp only [h]
  | snapshot c => simp only [checkLen_eq]; split <;> rfl
  | lenRead c l => simp only [checkGap_eq]; split <;> rfl
  | gapRead c l g => simp only [checkMatch_eq]; split <;> rfl
  | matched c l g x y => rfl
  | copied c m => rfl

/-- Every micro-step brings a call nearer to its end. -/
theorem microCase_remaining {s s' : State} (h : MicroCase s s') : s'.call.remaining ≤ s.call.remaining - 1 := by
  cases h <;> simp_all [TryPopCall.remaining]

end Sys2Proof.Machine
end

