-- ==== Sys2Proof/Laws/Step.lean ====
section
/-! SUPPORT. What the ports, the decoder and the step do, said once. -/

namespace Sys2Proof

/-- The word of an edge event decodes to the EDGE it encodes (spec/30_encoding.md R63). -/
theorem decode_edgeWord (e : Machine.EdgeEvent) :
    decode (Machine.edgeWord e) = .ok (.edge e.timestamp e.level) := by
  have hop : opField (Machine.edgeWord e) = 0 := by
    apply BitVec.eq_of_getLsbD_eq
    intro i hi
    simp only [opField, Machine.edgeWord, formatE, BitVec.getLsbD_extractLsb', BitVec.getLsbD_append]
    have h1 : ¬ (33 + i < 32) := by omega
    have h2 : ¬ (33 + i - 32 < 1) := by omega
    simp [h1, h2]
  have ht : timestampField (Machine.edgeWord e) = e.timestamp := by
    apply BitVec.eq_of_getLsbD_eq
    intro i hi
    simp only [timestampField, Machine.edgeWord, formatE, BitVec.getLsbD_extractLsb', BitVec.getLsbD_append]
    simp [hi]
  have hl : levelField (Machine.edgeWord e) = e.level := by
    simp only [levelField, Machine.edgeWord, formatE, BitVec.getLsbD_append]
    cases e.level <;> rfl
  simp [decode, hop, ht, hl]

namespace Machine

/-- A foreground operation has its effect when no call is in progress. -/
theorem foreground_idle {effect : State → State} {s : State} (h : s.call = .idle) :
    foreground effect s = .next (effect s) := by simp [foreground, h]

theorem foreground_busy {effect : State → State} {s : State} (h : s.call ≠ .idle) :
    foreground effect s = .refused .foregroundBusy := by simp [foreground, h]

/-- Every operation but EDGE is a foreground operation: what each one's effect is. -/
theorem exec_tryPop_eq (s : State) : exec .tryPop s = foreground takeSnapshot s := rfl

theorem exec_init_eq (s : State) : exec .init s = foreground (fun s => (resetDecoder s).answer respZero) s := rfl

theorem exec_start_eq (n : Byte) (s : State) :
    exec (.start n) s =
      foreground (fun s => (startLine n (Config.lineOk n) s).answer (respBool (Config.lineOk n))) s := rfl

theorem exec_stop_eq (n : Byte) (s : State) :
    exec (.stop n) s = foreground (fun s => (stopLine (Config.lineOk n) s).answer (respBool (Config.lineOk n))) s := rfl

theorem exec_errIdx_eq (s : State) :
    exec .errIdx s = foreground (fun s => s.answer (respByte s.lastErrorAtLevelIndex)) s := rfl

theorem exec_reserved6_eq (p : BitVec 33) (s : State) : exec (.reserved6 p) s = foreground rejectWord s := rfl

theorem exec_reserved7_eq (p : BitVec 33) (s : State) : exec (.reserved7 p) s = foreground rejectWord s := rfl

theorem illegalWord_eq (s : State) : illegalWord s = foreground rejectWord s := rfl

/-- An operation that is no EDGE is a foreground operation. -/
theorem exec_foreground (i : Instr) (h : ∀ t level, i ≠ .edge t level) :
    ∃ effect, ∀ s, exec i s = foreground effect s := by
  cases i with
  | edge t level => exact absurd rfl (h t level)
  | tryPop => exact ⟨_, exec_tryPop_eq⟩
  | init => exact ⟨_, exec_init_eq⟩
  | start n => exact ⟨_, exec_start_eq n⟩
  | stop n => exact ⟨_, exec_stop_eq n⟩
  | errIdx => exact ⟨_, exec_errIdx_eq⟩
  | reserved6 p => exact ⟨_, exec_reserved6_eq p⟩
  | reserved7 p => exact ⟨_, exec_reserved7_eq p⟩

/-- If a foreground operation answers a next state, no call was in progress and the state is its effect. -/
theorem foreground_next {effect : State → State} {s s' : State} (h : foreground effect s = .next s') :
    s.call = .idle ∧ s' = effect s := by
  by_cases hc : s.call = .idle
  · rw [foreground_idle hc] at h
    cases h
    exact ⟨hc, rfl⟩
  · rw [foreground_busy hc] at h
    cases h

/-- An edge at the handler port is the next operation (spec/60_exceptions.md R166). -/
theorem step_edge {s : State} {e : EdgeEvent} {rest : List (Option EdgeEvent)} (h : s.handlerPort = some e :: rest) :
    step s = exec (.edge e.timestamp e.level) { s with handlerPort := rest } := by
  simp [step, fetch, h, runWord, decode_edgeWord]

/-- The state in which the foreground agent moves: a quiet slot, if one stands at the handler port, has passed. -/
def State.quiet (s : State) : State := { s with handlerPort := s.handlerPort.tail }

/-- No edge stands at the handler port: the foreground agent has its turn. -/
theorem fetch_quiet {s : State} (h : ∀ e rest, s.handlerPort ≠ some e :: rest) :
    fetch s = fetchForeground s.quiet := by
  unfold fetch
  split
  · rename_i e rest he
    exact absurd he (h e rest)
  · rename_i rest he
    simp [State.quiet, he]
  · rename_i he
    have : s.quiet = s := by cases s; simp_all [State.quiet]
    rw [this]

/-- The foreground agent, between calls, runs its next word. -/
theorem step_foreground {s : State} {w : OpWord} {rest : List OpWord} (h : ∀ e r, s.handlerPort ≠ some e :: r)
    (hc : s.call = .idle) (hw : s.foregroundPort = w :: rest) :
    step s = runWord w { s.quiet with foregroundPort := rest } := by
  simp [step, fetch_quiet h, fetchForeground, State.quiet, hc, hw]

/-- The foreground agent, in the middle of a call, does its next micro-step (spec/00_scope.md R9). -/
theorem step_busy {s : State} (h : ∀ e r, s.handlerPort ≠ some e :: r) (hc : s.call ≠ .idle) :
    step s = .next (microStep s.quiet) := by
  simp [step, fetch_quiet h, fetchForeground, State.quiet, hc]

/-- Nothing stands at the ports and no call is in progress: the block is idle. -/
theorem step_idle {s : State} (h : ∀ e r, s.handlerPort ≠ some e :: r) (hc : s.call = .idle)
    (hw : s.foregroundPort = []) : step s = .next s.quiet := by
  have hq : s.quiet.call = .idle := hc
  simp only [step, fetch_quiet h, fetchForeground, hq, if_true]
  simp [State.quiet, hw, microStep_idle, hc]

/-- Everything a step can do: an edge, a foreground word, a micro-step, or nothing. -/
theorem step_cases (s : State) :
    (∃ e rest, s.handlerPort = some e :: rest ∧
      step s = exec (.edge e.timestamp e.level) { s with handlerPort := rest }) ∨
    ((∀ e r, s.handlerPort ≠ some e :: r) ∧
      ((s.call ≠ .idle ∧ step s = .next (microStep s.quiet)) ∨
       (s.call = .idle ∧ s.foregroundPort = [] ∧ step s = .next s.quiet) ∨
       (∃ w rest, s.call = .idle ∧ s.foregroundPort = w :: rest ∧
         step s = runWord w { s.quiet with foregroundPort := rest }))) := by
  by_cases h : ∀ e r, s.handlerPort ≠ some e :: r
  · refine .inr ⟨h, ?_⟩
    by_cases hc : s.call = .idle
    · cases hw : s.foregroundPort with
      | nil => exact .inr (.inl ⟨hc, rfl, step_idle h hc hw⟩)
      | cons w rest => exact .inr (.inr ⟨w, rest, hc, rfl, step_foreground h hc hw⟩)
    · exact .inl ⟨hc, step_busy h hc⟩
  · simp only [ne_eq, not_forall, not_not] at h
    obtain ⟨e, rest, he⟩ := h
    exact .inl ⟨e, rest, he, step_edge he⟩

end Machine

end Sys2Proof
end

