-- ==== Sys2Proof/Laws/Values.lean ====
section
/-! SUPPORT. The values that EDGE computes, said once in the spec's numbers (spec/40_edge_decoder.md R88, R92, R94,
R104), and the store's form after each operation on it (spec/10_state.md R28 item 3). -/

namespace Sys2Proof.Machine

/-- `gapTime` at a message begin: the time since the last message in units of 128, at most 0xFFFF (40_edge_decoder R88). -/
theorem gapUnits_eq (t last : Time) :
    gapUnits t last = BitVec.ofNat 16 (min ((t - last).toNat / 128) 65535) := by
  have hs : ((t - last) >>> 7).toNat = (t - last).toNat / 128 := by
    simp [BitVec.toNat_ushiftRight, Nat.shiftRight_eq_div_pow]
  apply BitVec.eq_of_toNat_eq
  simp only [gapUnits, sat16, sub32, hs]
  generalize (t - last).toNat = d at *
  by_cases h : d / 128 ≤ 65535
  · rw [if_pos h, BitVec.toNat_setWidth, hs, BitVec.toNat_ofNat, min_eq_left h]
  · rw [if_neg h, BitVec.toNat_ofNat, min_eq_right (by omega)]
    rfl

/-- `lenTime` at a commit: the time since the message began (40_edge_decoder R94). -/
theorem low16_eq (v : Time) : low16 v = BitVec.ofNat 16 v.toNat := by
  apply BitVec.eq_of_toNat_eq
  simp [low16, BitVec.toNat_setWidth]

/-- A data bit at its place is below the place's upper neighbour (40_edge_decoder R92, R97 (g)). -/
theorem placedBit_le (b : Bool) : ∀ k : Fin 7, ((BitVec.ofBool b).setWidth 8 <<< k.val : Byte).toNat ≤ 2 ^ k.val := by
  cases b <;> decide

/-- An OR of two values below a power of two is below it. -/
theorem or_lt_two_pow (n : Nat) (x y : Byte) (hx : x.toNat < 2 ^ n) (hy : y.toNat < 2 ^ n) : (x ||| y).toNat < 2 ^ n := by
  rw [BitVec.toNat_or]
  exact Nat.or_lt_two_pow hx hy

/-- Bit packing keeps 7 bits of `cmd` and 5 bits of `adr` in use (40_edge_decoder R92; 10_state R22, R23). -/
theorem withBit_fits (r : MessageRecord) (k : Nat) (b : Bool) (hk : k ≤ 11) (hc : r.cmd.toNat ≤ 0x7F)
    (ha : r.adr.toNat ≤ 0x1F) : (r.withBit k b).cmd.toNat ≤ 0x7F ∧ (r.withBit k b).adr.toNat ≤ 0x1F := by
  unfold MessageRecord.withBit
  by_cases h : k < 7
  · rw [if_pos h]
    have hb : ((BitVec.ofBool b).setWidth 8 <<< k : Byte).toNat ≤ 2 ^ k := placedBit_le b ⟨k, h⟩
    have hp : 2 ^ k ≤ 2 ^ 6 := Nat.pow_le_pow_right (by decide) (by omega)
    exact ⟨Nat.le_of_lt_succ (or_lt_two_pow 7 _ _ (by omega) (by omega)), ha⟩
  · rw [if_neg h]
    have hb : ((BitVec.ofBool b).setWidth 8 <<< (k - 7) : Byte).toNat ≤ 2 ^ (k - 7) := placedBit_le b ⟨k - 7, by omega⟩
    have hp : 2 ^ (k - 7) ≤ 2 ^ 4 := Nat.pow_le_pow_right (by decide) (by omega)
    exact ⟨hc, Nat.le_of_lt_succ (or_lt_two_pow 5 _ _ (by omega) (by omega))⟩

/-- Bit packing leaves the record's duration alone (40_edge_decoder R92). -/
@[simp] theorem withBit_lenTime (r : MessageRecord) (k : Nat) (b : Bool) : (r.withBit k b).lenTime = r.lenTime := by
  unfold MessageRecord.withBit
  split <;> rfl

/-- A record that fits keeps the store's form. -/
theorem setRecord_wf {m : Store} (i : SlotIndex) {r : MessageRecord} (hm : m.wf = true)
    (hr : r.cmd.toNat ≤ 0x7F ∧ r.adr.toNat ≤ 0x1F) : (m.setRecord i r).wf = true := by
  rw [wf_iff] at hm ⊢
  intro j
  rw [record_setRecord]
  split
  · exact hr
  · exact hm j

/-- Every write that EDGE, TRYPOP and INIT make keeps the store's form: here, the packing of a data bit. -/
theorem packBit_wf {k : Nat} (b : Bool) {s : State} (hk : k ≤ 11) (h : s.slot.wf = true) :
    (packBit k b s).slot.wf = true := by
  have hs := (wf_iff s.slot).mp h
  refine (wf_iff _).mpr fun j => ?_
  rw [record_packBit]
  split
  · exact withBit_fits _ _ _ hk (hs _).1 (hs _).2
  · exact hs j

/-- A message begin keeps the store's form. -/
theorem edgeBegin_wf (t : Time) {s : State} (h : s.slot.wf = true) : (edgeBegin t s).slot.wf = true := by
  refine (wf_iff _).mpr fun j => ?_
  rw [record_edgeBegin]
  split
  · exact ⟨Nat.zero_le _, Nat.zero_le _⟩
  · exact (wf_iff s.slot).mp h j

/-- A commit keeps the store's form. -/
theorem edgeCommit_wf (t : Time) {s : State} (h : s.slot.wf = true) : (edgeCommit t s).slot.wf = true := by
  have hs := (wf_iff s.slot).mp h
  refine (wf_iff _).mpr fun j => ?_
  rw [record_edgeCommit]
  split
  · exact hs _
  · exact hs j

/-- A delivery keeps the store's form. -/
theorem deliver_wf (c : SlotIndex) (m : MessageRecord) {s : State} (h : s.slot.wf = true) :
    (deliver c m s).slot.wf = true := by
  have : (deliver c m s).slot = memWrite s.slot (currentSlot c) .lenTime 0 := rfl
  rw [this]
  exact memWrite_wf h trivial

/-- The bounds of the time elapsed grow by the window of each half-bit (40_edge_decoder R104). -/
theorem minElapsed_succ (i : Nat) : minElapsed (i + 1) = minElapsed i + if i = 0 then 1800 else 300 := by
  unfold minElapsed
  split_ifs <;> omega

theorem maxElapsed_succ (i : Nat) :
    maxElapsed (i + 1) = maxElapsed i + if i = 0 then 3000 else if i % 2 = 1 then 900 else 1500 := by
  unfold maxElapsed
  split_ifs <;> omega

theorem maxElapsed_le (i : Fin 25) : maxElapsed i.val ≤ 30300 := by
  unfold maxElapsed
  split_ifs <;> omega

end Sys2Proof.Machine
end

