-- ==== Sys2Proof/Machine/Trace.lean ====
section
/-! DEFINITION. The trace forms of spec/30_encoding.md: the outcome tag as a number (R72), and the trace syntax, one
operation a line (R70). No operation uses them. Lines are lists of characters (assumption 19). -/

namespace Sys2Proof.Machine

/-- The number of an outcome tag (30_encoding R72). -/
def EdgeOutcome.number : EdgeOutcome → Nat
  | .ignored => 0
  | .continues => 1
  | .softError => 2
  | .hardError => 3
  | .messageCommitted => 4

/-- The name of an outcome tag (30_encoding R72). -/
def EdgeOutcome.name : EdgeOutcome → List Char
  | .ignored => "Ignored".toList
  | .continues => "Continue".toList
  | .softError => "SoftError".toList
  | .hardError => "HardError".toList
  | .messageCommitted => "MessageCommitted".toList

/-- The decimal digits of a number, at most `fuel` of them. -/
def decimalDigits : Nat → Nat → List Char
  | 0, _ => []
  | fuel + 1, n =>
    if n < 10 then [Char.ofNat (48 + n)]
    else decimalDigits fuel (n / 10) ++ [Char.ofNat (48 + n % 10)]

/-- A `u32` or shorter operand in decimal (30_encoding R70). -/
def decimal (n : Nat) : List Char := decimalDigits 10 n

/-- The trace line of an operation (30_encoding R70). The trace syntax has no form for a reserved word. -/
def traceLine : Instr → Option (List Char)
  | .edge timestamp level =>
    some ("EDGE ".toList ++ decimal timestamp.toNat ++ " ".toList ++ decimal level.toNat)
  | .tryPop => some "TRYPOP".toList
  | .init => some "INIT".toList
  | .start line => some ("START ".toList ++ decimal line.toNat)
  | .stop line => some ("STOP ".toList ++ decimal line.toNat)
  | .errIdx => some "ERRIDX".toList
  | .reserved6 _ => none
  | .reserved7 _ => none

/-- A hexadecimal digit, upper case. -/
def hexDigit (n : Nat) : Char := if n < 10 then Char.ofNat (48 + n) else Char.ofNat (55 + n)

/-- A byte as `0x` and two hexadecimal digits (30_encoding R70). -/
def hexByte (b : Byte) : List Char := ['0', 'x', hexDigit (b.toNat / 16), hexDigit (b.toNat % 16)]

/-- The record that 48 bits pack (30_encoding R65). -/
def unpackRecord (q : BitVec 48) : MessageRecord where
  gapTime := q.extractLsb' 32 16
  lenTime := q.extractLsb' 16 16
  cmd := q.extractLsb' 8 8
  adr := q.extractLsb' 0 8

/-- A delivered message in the trace syntax (30_encoding R70); its two outer characters are the braces. -/
def recordText (m : MessageRecord) : List Char :=
  [Char.ofNat 123] ++ "gap=".toList ++ decimal m.gapTime.toNat ++ ", len=".toList ++ decimal m.lenTime.toNat ++
    ", cmd=".toList ++ hexByte m.cmd ++ ", adr=".toList ++ hexByte m.adr ++ [Char.ofNat 125]

/-- What a trace writes after `->` for an operation that has just ended in state `s` (30_encoding R64, R70, R72). -/
def traceResult (i : Instr) (s : State) : Option (List Char) :=
  match i with
  | .edge _ _ => s.edgeOutcome.map EdgeOutcome.name
  | .tryPop => s.response.map fun q =>
      if q.getLsbD 48 then recordText (unpackRecord (q.setWidth 48)) else "empty".toList
  | .init => none
  | .start _ => s.response.map fun q => if q.getLsbD 0 then "true".toList else "false".toList
  | .stop _ => s.response.map fun q => if q.getLsbD 0 then "true".toList else "false".toList
  | .errIdx => s.response.map fun q => decimal (q.extractLsb' 0 8).toNat
  | .reserved6 _ => none
  | .reserved7 _ => none

/-- The value of a digit: decimal or hexadecimal, either case. -/
def digitValue (c : Char) : Option Nat :=
  let n := c.toNat
  if 48 ≤ n ∧ n ≤ 57 then some (n - 48)
  else if 97 ≤ n ∧ n ≤ 102 then some (n - 87)
  else if 65 ≤ n ∧ n ≤ 70 then some (n - 55)
  else none

/-- The number that digits of one base write after the value `acc`. -/
def readDigits (base : Nat) : Nat → List Char → Option Nat
  | acc, [] => some acc
  | acc, c :: cs =>
    match digitValue c with
    | some v => if v < base then readDigits base (base * acc + v) cs else none
    | none => none

/-- A number of the trace syntax: decimal, or hexadecimal behind `0x` (30_encoding R70). -/
def readNumber : List Char → Option Nat
  | [] => none
  | ['0', 'x'] => none
  | '0' :: 'x' :: cs => readDigits 16 0 cs
  | cs => readDigits 10 0 cs

/-- A line up to its comment, which runs from `#` to the end of the line (30_encoding R70). -/
def dropComment : List Char → List Char
  | [] => []
  | c :: cs => if c = '#' then [] else c :: dropComment cs

/-- The words of a line, which spaces separate. -/
def lineWords : List Char → List (List Char)
  | [] => []
  | c :: cs =>
    if c = ' ' then lineWords cs
    else match cs, lineWords cs with
      | [], _ => [[c]]
      | d :: _, ws => if d = ' ' then [c] :: ws else match ws with
        | [] => [[c]]
        | w :: ws => (c :: w) :: ws

/-- A number as an operand of `w` bits, if it fits. -/
def readOperand (w : Nat) (cs : List Char) : Option (BitVec w) :=
  match readNumber cs with
  | some n => if n < 2 ^ w then some (BitVec.ofNat w n) else none
  | none => none

/-- The operation a trace line writes (30_encoding R70). -/
def readTraceLine (line : List Char) : Option Instr :=
  match lineWords (dropComment line) with
  | [op] =>
    if op = "TRYPOP".toList then some .tryPop
    else if op = "INIT".toList then some .init
    else if op = "ERRIDX".toList then some .errIdx
    else none
  | [op, x] =>
    if op = "START".toList then (readOperand 8 x).map .start
    else if op = "STOP".toList then (readOperand 8 x).map .stop
    else none
  | [op, x, y] =>
    if op = "EDGE".toList then
      match readOperand 32 x, readOperand 1 y with
      | some timestamp, some level => some (.edge timestamp (level == 1))
      | _, _ => none
    else none
  | _ => none

end Sys2Proof.Machine
end

