-- ==== Sys2Proof/Tests/Slice0.lean ====
section
/-! SUPPORT. Tests of the model: words written out from the format tables, the vectors V1 to V35 of
spec/95_test_vectors.md one step at a time, and for every obligation with hypotheses a witness of them. Every
expected value is the spec's. -/

namespace Sys2Proof.Tests

open Sys2Proof.Machine

/-! ## Decoding: one word for each row, written bit by bit from 30_encoding R61 and R62 (vector V34) -/

theorem test_decode_edge_active :
    decode 0b000_0_00000000000000011000011010100000 = .ok (.edge 100000 false) := by decide

theorem test_decode_edge_inactive :
    decode 0b000_1_00000000000000011001000000000000 = .ok (.edge 102400 true) := by decide

theorem test_decode_edge_all_ones :
    decode 0b000_1_11111111111111111111111111111111 = .ok (.edge 4294967295 true) := by decide

theorem test_decode_tryPop : decode 0b001_0_00000000000000000000000000000000 = .ok .tryPop := by decide

theorem test_decode_init : decode 0b010_0_00000000000000000000000000000000 = .ok .init := by decide

theorem test_decode_start : decode 0b011_0_000000000000000000000000_11111111 = .ok (.start 255) := by decide

theorem test_decode_stop : decode 0b100_0_000000000000000000000000_00000010 = .ok (.stop 2) := by decide

theorem test_decode_errIdx : decode 0b101_0_00000000000000000000000000000000 = .ok .errIdx := by decide

theorem test_decode_reserved6 :
    decode 0b110_0_00000000000000000000000000000000 = .ok (.reserved6 0) := by decide

theorem test_decode_reserved7 :
    decode 0b111_0_00000000000000000000000000000000 = .ok (.reserved7 0) := by decide

/-- The table's numbering of bits, over 40 bits (opcode_table.json); a number of more than 36 bits is no word. -/
theorem test_decodeTableWord :
    decodeTableWord 40 0x6000000FF = some (.start 255) ∧ decodeTableWord 40 0x200000001 = none ∧
    decodeTableWord 40 0x1000000000 = none := by decide

/-! ## Well-formedness: an ill-formed term for each check -/

theorem test_reserved6_is_no_operation : (Instr.reserved6 0).wellFormed = false := by decide

theorem test_reserved7_is_no_operation : (Instr.reserved7 1).wellFormed = false := by decide

/-- Format N and format L words with a must-be-zero bit set, one for each operation number (30_encoding R67). -/
theorem test_illegal_words_are_refused :
    wordLegal 0x200000001 = false ∧ wordLegal 0x500000000 = false ∧ wordLegal 0x600000100 = false ∧
    wordLegal 0x900000000 = false ∧ wordLegal 0xA80000000 = false ∧ wordLegal 0xC00000000 = false ∧
    wordLegal 0xE00000000 = false := by decide

theorem test_illegal_words_have_a_name :
    decode 0x200000001 = .error .formatNNotZero ∧ decode 0x500000000 = .error .formatNNotZero ∧
    decode 0x600000100 = .error .formatLNotZero ∧ decode 0x700000002 = .error .formatLNotZero ∧
    decode 0xA80000000 = .error .formatNNotZero := by decide

theorem test_legal_words_are_accepted :
    wordLegal 0x1FFFFFFFF = true ∧ wordLegal 0x200000000 = true ∧ wordLegal 0x400000000 = true ∧
    wordLegal 0x6000000FF = true ∧ wordLegal 0x800000002 = true ∧ wordLegal 0xA00000000 = true := by decide

/-! ## Small states -/

/-- The next state of an outcome. -/
def nextOf : Host.Outcome State Fault Refusal → Option State
  | .next s => some s
  | .fault _ => none
  | .refused _ => none

/-- Half-bit `x` is in progress since `hb`, in a message that began at `rm` (the start states of V2 to V5). -/
def midMessage (x : LevelIndex) (rm hb : Time) : State :=
  { State.reset with
    enabled := true
    lastLevelIndex := x
    lastHalfBitTime := hb
    lastFlipTime := hb
    recvMsgTime := rm
    slot := Store.zero.setRecord 0 { gapTime := 78, lenTime := 0, cmd := 0, adr := 0 } }

/-- The gate is open, nothing has been received. -/
def listening : State := { State.reset with enabled := true, watchLine := 2 }

/-- Two equal frames have arrived (V21 after step 3). -/
def twoFrames : State :=
  { listening with
    cursor := 2
    slot := (Store.zero.setRecord 0 { gapTime := 781, lenTime := 19200, cmd := 0x15, adr := 0x01 }).setRecord 1
      { gapTime := 201, lenTime := 19200, cmd := 0x15, adr := 0x01 } }

/-- What an EDGE is seen to do: its tag, then `idx`, `tiny`, `hb`, `fl`, `err`. -/
structure Seen where
  tag : Option EdgeOutcome
  idx : LevelIndex
  tiny : Bool
  hb : Time
  fl : Time
  err : Byte
deriving DecidableEq, Repr

/-- What an EDGE is seen to do. -/
def edgeSeen (t : Time) (level : Bool) (s : State) : Option Seen :=
  (nextOf (exec (.edge t level) s)).map fun u =>
    ⟨u.edgeOutcome, u.lastLevelIndex, u.requestTinyErrorLevel, u.lastHalfBitTime, u.lastFlipTime,
      u.lastErrorAtLevelIndex⟩

/-- What an EDGE is seen to do to the records: the cursor after it, and `slot[0]`. -/
def edgeStored (t : Time) (level : Bool) (s : State) : Option (SlotIndex × MessageRecord) :=
  (nextOf (exec (.edge t level) s)).map fun u => (u.cursor, u.slot.record 0)

/-- What a TRYPOP is seen to do: its response, and the `lenTime` of slots 0 and 1. -/
def popSeen (s : State) : Option (Option RespWord × Half × Half) :=
  (nextOf (tryPopToEnd s)).map fun u => (u.response, memRead u.slot 0 .lenTime, memRead u.slot 1 .lenTime)

/-! ## EDGE: the clauses of its statements at the bounds of their ranges

`listening` meets their hypotheses in `GAP`, `midMessage` the ones in mid-message, `State.reset` the one on the gate. -/

theorem midMessage_meets (x : LevelIndex) (rm hb : Time) :
    (midMessage x rm hb).enabled = true ∧ (midMessage x rm hb).lastLevelIndex = x := ⟨rfl, rfl⟩

theorem listening_meets : listening.enabled = true ∧ listening.lastLevelIndex = .gap ∧ State.reset.enabled = false :=
  ⟨rfl, rfl, rfl⟩

/-- V1, edge 1: `gapTime = 100000 >> 7 = 781`. -/
theorem witness_ActiveEdgeInGapBeginsAMessage :
    edgeSeen 100000 false listening = some ⟨some .continues, .half 0, false, 100000, 100000, 0⟩ ∧
    edgeStored 100000 false listening = some (0, { gapTime := 781, lenTime := 0, cmd := 0, adr := 0 }) := by decide

/-- V7: the shift, the repeat threshold and the saturation, across the wrap of the counter too. -/
theorem test_gapTime :
    gapUnits 1127 1000 = 0 ∧ gapUnits 76135 1000 = 586 ∧ gapUnits 76136 1000 = 587 ∧
    gapUnits 8389479 1000 = 65534 ∧ gapUnits 8389608 1000 = 65535 ∧ gapUnits 999 1000 = 65535 := by decide

/-- V6 and V32: the idle filter and the gate. -/
theorem witness_InactiveEdgeInGapIsIgnored_and_EdgeWhileDisabledIsDropped :
    edgeSeen 119800 true listening = some ⟨some .ignored, .gap, false, 0, 0, 0⟩ ∧
    edgeSeen 1000 false State.reset = some ⟨some .ignored, .gap, false, 0, 0, 0⟩ := by decide

/-- V2: the bounds of the start bit's window. -/
theorem witness_StartBitActiveHalf :
    edgeSeen 11799 true (midMessage (.half 0) 10000 10000) = some ⟨some .softError, .half 0, true, 10000, 11799, 0⟩ ∧
    edgeSeen 11800 true (midMessage (.half 0) 10000 10000) = some ⟨some .continues, .half 1, false, 11800, 11800, 0⟩ ∧
    edgeSeen 13000 true (midMessage (.half 0) 10000 10000) = some ⟨some .continues, .half 1, false, 13000, 13000, 0⟩ ∧
    edgeSeen 13001 true (midMessage (.half 0) 10000 10000) = some ⟨some .hardError, .gap, false, 10000, 13001, 0⟩ := by
  decide

/-- V3: the bounds of an inactive half's window. -/
theorem witness_InactiveHalf :
    edgeSeen 12699 false (midMessage (.half 1) 10000 12400) = some ⟨some .softError, .half 1, true, 12400, 12699, 0⟩ ∧
    edgeSeen 12700 false (midMessage (.half 1) 10000 12400) = some ⟨some .continues, .half 2, false, 12700, 12700, 0⟩ ∧
    edgeSeen 13300 false (midMessage (.half 1) 10000 12400) = some ⟨some .continues, .half 2, false, 13300, 13300, 0⟩ ∧
    edgeSeen 13301 false (midMessage (.half 1) 10000 12400) = some ⟨some .hardError, .gap, false, 12400, 13301, 1⟩ := by
  decide

/-- V4: the bounds of a data bit's window. -/
theorem witness_DataBitActiveHalf :
    edgeSeen 13299 true (midMessage (.half 2) 10000 13000) = some ⟨some .softError, .half 2, true, 13000, 13299, 0⟩ ∧
    edgeSeen 13300 true (midMessage (.half 2) 10000 13000) = some ⟨some .continues, .half 3, false, 13300, 13300, 0⟩ ∧
    edgeSeen 14500 true (midMessage (.half 2) 10000 13000) = some ⟨some .continues, .half 3, false, 14500, 14500, 0⟩ ∧
    edgeSeen 14501 true (midMessage (.half 2) 10000 13000) = some ⟨some .hardError, .gap, false, 13000, 14501, 2⟩ := by
  decide

/-- V4, and R92 on the bit's place: the threshold of 900, data bit 0, the last bit of `cmd`, the first of `adr`. -/
theorem witness_DataBitActiveHalf_value :
    edgeStored 13899 true (midMessage (.half 2) 10000 13000) =
      some (0, { gapTime := 78, lenTime := 0, cmd := 0, adr := 0 }) ∧
    edgeStored 13900 true (midMessage (.half 2) 10000 13000) =
      some (0, { gapTime := 78, lenTime := 0, cmd := 1, adr := 0 }) ∧
    edgeStored 14200 true (midMessage (.half 14) 10000 13000) =
      some (0, { gapTime := 78, lenTime := 0, cmd := 0x40, adr := 0 }) ∧
    edgeStored 14200 true (midMessage (.half 16) 10000 13000) =
      some (0, { gapTime := 78, lenTime := 0, cmd := 0, adr := 1 }) := by decide

/-- V5: the window of the final data bit, and its commit. -/
theorem witness_FinalDataBitCommits :
    edgeSeen 26499 true (midMessage (.half 24) 10000 26200) = some ⟨some .softError, .half 24, true, 26200, 26499, 0⟩ ∧
    edgeSeen 26500 true (midMessage (.half 24) 10000 26200) =
      some ⟨some .messageCommitted, .gap, false, 26500, 26500, 0⟩ ∧
    edgeSeen 27701 true (midMessage (.half 24) 10000 26200) = some ⟨some .hardError, .gap, false, 26200, 27701, 24⟩ := by
  decide

theorem witness_FinalDataBitCommits_record :
    edgeStored 27099 true (midMessage (.half 24) 10000 26200) =
      some (1, { gapTime := 78, lenTime := 17099, cmd := 0, adr := 0 }) ∧
    edgeStored 27100 true (midMessage (.half 24) 10000 26200) =
      some (1, { gapTime := 78, lenTime := 17100, cmd := 0, adr := 0x10 }) ∧
    edgeStored 27700 true (midMessage (.half 24) 10000 26200) =
      some (1, { gapTime := 78, lenTime := 17700, cmd := 0, adr := 0x10 }) := by decide

/-- V16: the threshold of the unexpected-level test, and V15: the flag makes the second one a hard error. -/
theorem witness_UnexpectedLevel :
    edgeSeen 12699 true (midMessage (.half 1) 10000 12400) = some ⟨some .softError, .half 1, true, 12400, 12699, 0⟩ ∧
    edgeSeen 12700 true (midMessage (.half 1) 10000 12400) = some ⟨some .hardError, .gap, false, 12400, 12700, 1⟩ ∧
    edgeSeen 12500 true { midMessage (.half 1) 10000 12400 with requestTinyErrorLevel := true } =
      some ⟨some .hardError, .gap, true, 12400, 12500, 1⟩ := by decide

/-- V18: a timestamp that goes backwards is a long duration. -/
theorem test_backwards_timestamp :
    edgeSeen 9000 true (midMessage (.half 0) 10000 10000) = some ⟨some .hardError, .gap, false, 10000, 9000, 0⟩ := by
  decide

/-- V1 and V8: the words of a nominal frame, the second across the wrap of the counter. -/
theorem test_frame_words :
    ((frame 100000 0x15 0x01).map edgeWord).take 4 = [0x0000186A0, 0x100019000, 0x000019258, 0x100019708] ∧
    ((frame 100000 0x15 0x01).map edgeWord).drop 24 = [0x00001CF48, 0x10001D1A0] ∧
    ((frame 4294962296 0x7F 0x1F).map edgeWord).take 6 =
      [0x0FFFFEC78, 0x1FFFFF5D8, 0x0FFFFF830, 0x1FFFFFCE0, 0x0FFFFFF38, 0x1000003E8] := by decide

/-! ## TRYPOP -/

/-- V20, and V21 step 4: the delivery zeroes `lenTime` of the current record. -/
theorem witness_TryPopWithoutPreemption :
    popSeen listening = some (some 0, 0, 0) ∧ popSeen twoFrames = some (some 0x100C94B001501, 19200, 0) := by decide

/-- V21 step 2 and V22 step 10: a first press and a mismatch are `empty` and keep `lenTime`. -/
theorem witness_TryPopWithoutPreemption_empty :
    popSeen { twoFrames with cursor := 1 } = some (some 0, 19200, 19200) ∧
    popSeen { twoFrames with slot := memWrite twoFrames.slot 0 .cmd 0x12 } = some (some 0, 19200, 19200) := by decide

/-- V35: a response word. -/
theorem test_response_word :
    respMessage { gapTime := 65535, lenTime := 24000, cmd := 0x7F, adr := 0x1F } = 0x1FFFF5DC07F1F ∧
    packRecord { gapTime := 206, lenTime := 18600, cmd := 0x12, adr := 0x01 } = 0x00CE48A81201 := by decide

/-! ## INIT, START, STOP, ERRIDX, the reserved rows -/

/-- V30: INIT leaves `enabled` and `watchLine`. -/
theorem test_init :
    nextOf (exec .init { twoFrames with lastLevelIndex := .half 7, lastErrorAtLevelIndex := 4 }) =
      some { listening with response := some 0 } := by decide

/-- V31: the writes of START for a line that is accepted and for one that is not. -/
theorem test_start :
    startLine 9 false State.reset = State.reset ∧
    startLine 2 true State.reset = { State.reset with enabled := true, watchLine := 2 } := by decide

/-- START writes what the platform's answer says, and answers it (V31). -/
theorem test_start_answers :
    exec (.start 2) State.reset =
      .next ((startLine 2 (Config.lineOk 2) State.reset).answer (respBool (Config.lineOk 2))) := rfl

/-- V31: STOP leaves `watchLine`, and does nothing for a line that is not accepted. -/
theorem test_stop :
    stopLine false listening = listening ∧
    stopLine true listening = { State.reset with watchLine := 2 } := by decide

theorem test_stop_answers :
    exec (.stop 2) listening = .next ((stopLine (Config.lineOk 2) listening).answer (respBool (Config.lineOk 2))) := rfl

/-- V31: the `bool` result stands in bit 0. -/
theorem test_bool_response : respBool true = 0x0000000000001 ∧ respBool false = 0 := by decide

/-- V33: ERRIDX after a hard error at half-bit 24; the register keeps its value. -/
theorem test_errIdx :
    nextOf (exec .errIdx { listening with lastErrorAtLevelIndex := 24 }) =
      some { listening with lastErrorAtLevelIndex := 24, response := some 0x0000000000018 } := by decide

theorem witness_ReservedRowsAnswerIllegal :
    nextOf (exec (.reserved6 5) listening) = some { listening with response := some 0x2000000000000 } ∧
    nextOf (exec (.reserved7 0) listening) = some { listening with response := some 0x2000000000000 } := by decide

/-! ## Trace forms (30_encoding R70, R72) -/

theorem test_trace_lines :
    traceLine (.edge 102400 true) = some "EDGE 102400 1".toList ∧ traceLine (.start 255) = some "START 255".toList ∧
    traceResult .tryPop { twoFrames with response := some 0x100C94B001501 } =
      some ([Char.ofNat 123] ++ "gap=201, len=19200, cmd=0x15, adr=0x01".toList ++ [Char.ofNat 125]) := by decide

theorem test_trace_reading :
    readTraceLine "EDGE 0x186A0 0  # start".toList = some (.edge 100000 false) ∧
    readTraceLine "STOP 2".toList = some (.stop 2) ∧ readTraceLine "TRYPOP".toList = some .tryPop ∧
    readTraceLine "START 256".toList = none := by decide

/-! ## The step -/

/-- The first operation after reset, for an EDGE word (dropped: the gate is closed) and for foreground words. -/
theorem test_first_step :
    nextOf (step (State.reset.withFetchWord 40 0x0000186A0)) =
      some { State.reset with edgeOutcome := some .ignored, handlerResponse := some 0 } ∧
    nextOf (step (State.reset.withFetchWord 40 0x200000000)) = some { State.reset with call := .snapshot 0 } ∧
    nextOf (step (State.reset.withFetchWord 40 0xA00000000)) = some { State.reset with response := some 0 } ∧
    nextOf (step (State.reset.withFetchWord 40 0xE00000000)) =
      some { State.reset with response := some 0x2000000000000 } := by decide

/-- START as the first operation after reset runs as `exec` says; its result rests on the platform. -/
theorem test_first_step_start :
    step (State.reset.withFetchWord 40 0x600000002) = exec (.start 2) State.reset := rfl

/-- The foreground agent's next step in a TRYPOP is its second micro-step, and a word that waits stays (R9, R127). -/
theorem witness_StepOfACallIsOneMicroStep :
    ForegroundMoves { twoFrames with call := .snapshot 2, foregroundPort := [0x400000000] } ∧
    (nextOf (step { twoFrames with call := .snapshot 2, foregroundPort := [0x400000000] })).map
      (fun s => (s.call, s.foregroundPort)) = some (.lenRead 2 19200, [0x400000000]) := by
  refine ⟨?_, by decide⟩
  intro e rest h
  cases h

/-- An edge at the handler port runs between two micro-steps, and the call stays as it is (R127). -/
theorem test_preemption :
    (nextOf (step { twoFrames with call := .lenRead 2 19200, handlerPort := [some ⟨190000, false⟩] })).map
      (fun s => (s.call, s.lastLevelIndex)) = some (.lenRead 2 19200, .half 0) := by decide

/-! ## Witnesses: a state and operands that meet the hypotheses of each other statement, with what follows -/

/-- For each kind of operand, a word that decodes (`OperandsAreFieldsOfTheWord`, `EncodeOfDecodeIsTheWord`). -/
theorem witness_OperandsAreFieldsOfTheWord :
    decode 0x1FFFFFFFF = .ok (.edge 0xFFFFFFFF true) ∧ decode 0x000000000 = .ok (.edge 0 false) ∧
    decode 0x6000000FF = .ok (.start 0xFF) ∧ decode 0x800000000 = .ok (.stop 0) ∧
    decode 0xDFFFFFFFF = .ok (.reserved6 0x1FFFFFFFF) ∧ decode 0xE00000001 = .ok (.reserved7 1) ∧
    encode (.edge 0xFFFFFFFF true) = 0x1FFFFFFFF ∧ encode (.reserved6 0x1FFFFFFFF) = 0xDFFFFFFFF := by decide

/-- The first word of the foreground agent, from a state of its own. -/
def issuing (w : OpWord) : State := { listening with foregroundPort := [w], handlerPort := [none] }

theorem issuing_moves (w : OpWord) : (issuing w).call = .idle ∧ ForegroundMoves (issuing w) := by
  refine ⟨rfl, ?_⟩
  intro e rest h
  cases h

/-- The response of a step. -/
def stepResponse (s : State) : Option (Option RespWord) := (nextOf (step s)).map (·.response)

/-- Each clause of the illegal words, at the lowest and the highest bit of its field (30_encoding R67). -/
theorem witness_IllegalOrReservedWordOnlyAnswersIllegal :
    ([0xC00000000, 0xFFFFFFFFF, 0x600000100, 0x700000000, 0x800000100, 0x900000000, 0x200000001, 0x300000000,
      0x400000001, 0x500000000, 0xA00000001, 0xB00000000] : List OpWord).map (fun w => stepResponse (issuing w)) =
      List.replicate 12 (some (some 0x2000000000000)) := by decide

theorem witness_StepRunsTheDecodedOperation :
    (issuing 0xA00000000).foregroundPort = [0xA00000000] ∧ decode 0xA00000000 = .ok .errIdx ∧
    stepResponse (issuing 0xA00000000) = some (some 0) ∧
    step { twoFrames with handlerPort := [some ⟨5000, true⟩], call := .snapshot 2 } =
      exec (.edge 5000 true) { twoFrames with handlerPort := [], call := .snapshot 2 } := by
  exact ⟨rfl, by decide, by decide, rfl⟩

/-- The rows of the transition table at the two ends of their ranges of half-bits: 23 and 24. -/
theorem witness_LevelIndexTransitionTable :
    edgeSeen 12700 false (midMessage (.half 23) 10000 12400) = some ⟨some .continues, .half 24, false, 12700, 12700, 0⟩ ∧
    edgeSeen 13301 false (midMessage (.half 23) 10000 12400) = some ⟨some .hardError, .gap, false, 12400, 13301, 23⟩ ∧
    edgeSeen 14500 true (midMessage (.half 22) 10000 13000) = some ⟨some .continues, .half 23, false, 14500, 14500, 0⟩ ∧
    edgeSeen 13299 false (midMessage (.half 24) 10000 13000) = some ⟨some .softError, .half 24, true, 13000, 13299, 0⟩ ∧
    edgeSeen 13300 false (midMessage (.half 24) 10000 13000) = some ⟨some .hardError, .gap, false, 13000, 13300, 24⟩ := by
  decide

/-- A soft error and a hard error of each origin (`SoftErrorWritesFlagAndFlipTimeOnly`,
`HardErrorWritesIndexGapAndFlipTimeOnly`, `OutOfWindowDurations`); an EDGE without a commit for `EdgeFrame`. -/
theorem witness_errors :
    (nextOf (exec (.edge 10000 true) (midMessage (.half 0) 10000 10000))).map (·.edgeOutcome) = some (some .softError) ∧
    (nextOf (exec (.edge 10001 false) (midMessage (.half 0) 10000 10000))).map (·.edgeOutcome) = some (some .softError) ∧
    (nextOf (exec (.edge 13001 true) (midMessage (.half 0) 10000 10000))).map (·.edgeOutcome) = some (some .hardError) ∧
    (nextOf (exec (.edge 10300 false) (midMessage (.half 0) 10000 10000))).map (·.edgeOutcome) = some (some .hardError) := by
  decide

/-- After a soft error at half-bit 1 (V3): both levels, and the window's bounds against the preserved boundary. -/
theorem witness_WhatFollowsASoftError :
    (nextOf (exec (.edge 12500 false) (midMessage (.half 1) 10000 12400))).map (fun s1 =>
      (s1.edgeOutcome, s1.lastLevelIndex)) = some (some .softError, .half 1) ∧
    ((nextOf (exec (.edge 12500 false) (midMessage (.half 1) 10000 12400))).map fun s1 =>
      [edgeSeen 12501 true s1, edgeSeen 12699 false s1, edgeSeen 12700 false s1, edgeSeen 13300 false s1,
        edgeSeen 13301 false s1].map fun o => o.map Seen.tag) =
      some [some (some .hardError), some (some .softError), some (some .continues), some (some .continues),
        some (some .hardError)] := by decide

/-- A state about to commit that meets the invariant (`CommittedDurationIsInRange`, `EveryStepKeepsTheInvariant`): the
shortest message there is (V9). -/
theorem witness_CommittedDurationIsInRange :
    Inv (midMessage (.half 24) 10000 18700) ∧
    edgeStored 19000 true (midMessage (.half 24) 10000 18700) =
      some (1, { gapTime := 78, lenTime := 9000, cmd := 0, adr := 0 }) := by
  refine ⟨⟨by decide, fun _ _ => rfl, fun _ => by decide, fun j h => ?_, fun i h => ?_, by decide, trivial⟩, by decide⟩
  · exact absurd (by revert j; decide) h
  · cases h
    decide

/-- The same state at the handler port's next edge: a step that keeps the invariant. -/
theorem witness_EveryStepKeepsTheInvariant :
    Inv { midMessage (.half 24) 10000 18700 with handlerPort := [some ⟨19000, true⟩] } ∧
    (nextOf (step { midMessage (.half 24) 10000 18700 with handlerPort := [some ⟨19000, true⟩] })).map (·.edgeOutcome) =
      some (some .messageCommitted) := by
  have h := witness_CommittedDurationIsInRange.1
  exact ⟨⟨h.store_wf, h.flip_eq_half, h.in_progress_empty, h.len_in_range, h.elapsed, h.error_index, h.call_ok⟩,
    by decide⟩

/-- The shortest frame of all zeros and the longest of all ones (V9); the same for the frames, and the state, of
`ConsensusOfTwoFrames`. -/
theorem witness_WellFormedFrameIsDecoded :
    (listening.enabled = true ∧ listening.lastLevelIndex = .gap ∧ listening.call = .idle ∧ listening.handlerPort = []) ∧
    (∀ b ∈ (List.replicate 12 (300, 300) : List (Time × Time)), BitTimed b) ∧
    (List.replicate 12 (300, 300) : List (Time × Time)).map lineBit = frameBits 0 0 ∧
    (∀ b ∈ (List.replicate 12 (900, 1500) : List (Time × Time)), BitTimed b) ∧
    (List.replicate 12 (900, 1500) : List (Time × Time)).map lineBit = frameBits 0x7F 0x1F := by
  refine ⟨⟨rfl, rfl, rfl, rfl⟩, fun b hb => ?_, by decide, fun b hb => ?_, by decide⟩
  all_goals
    obtain rfl := List.eq_of_mem_replicate hb
    exact ⟨by decide, by decide, by decide, by decide⟩

/-- An EDGE answers a next state on another epoch too, across the wrap of the counter (V8). -/
theorem witness_EdgeIsTheSameOnEveryEpoch :
    edgeSeen 12400 true (midMessage (.half 0) 10000 10000) = some ⟨some .continues, .half 1, false, 12400, 12400, 0⟩ ∧
    edgeSeen (12400 + 4294957000) true ((midMessage (.half 0) 10000 10000).shiftTimes 4294957000) =
      some ⟨some .continues, .half 1, false, 2104, 2104, 0⟩ := by decide

/-- The other clauses of a TRYPOP that nothing pre-empts, at the bound of the repeat gap (V23). -/
theorem witness_TryPopWithoutPreemption_gap :
    twoFrames.call = .idle ∧ QuietFor 5 twoFrames ∧
    popSeen { twoFrames with slot := memWrite twoFrames.slot 1 .gapTime 586 } = some (some 0x1024A4B001501, 19200, 0) ∧
    popSeen { twoFrames with slot := memWrite twoFrames.slot 1 .gapTime 587 } = some (some 0, 19200, 19200) := by
  refine ⟨rfl, ?_, by decide, by decide⟩
  intro a h
  cases h

/-- An edge that comes when the TRYPOP of an empty store has ended: the empty check alone needs one quiet slot. -/
theorem witness_TryPopWithoutPreemption_ended :
    QuietFor 1 { listening with handlerPort := [none, some ⟨190000, false⟩] } ∧
    (nextOf (tryPopToEnd { listening with handlerPort := [none, some ⟨190000, false⟩] })).map
      (fun s => (s.call, s.response, s.handlerPort)) = some (.idle, some 0, [some ⟨190000, false⟩]) := by
  refine ⟨?_, by decide⟩
  intro a h
  simpa using h

/-- An edge at once, and one after four more micro-steps. -/
theorem witness_TryPopIsPreemptedBetweenMicroSteps :
    (microStep^[0] (takeSnapshot twoFrames)).call = .snapshot 2 ∧
    (∀ j, j < 4 → (microStep^[j] (takeSnapshot twoFrames)).call ≠ .idle) ∧
    (microStep^[4] (takeSnapshot twoFrames)).call =
      .copied 2 { gapTime := 201, lenTime := 19200, cmd := 0x15, adr := 0x01 } := by decide

/-- One state for each micro-step of `MicroStepsOfTryPop`. -/
theorem witness_MicroStepsOfTryPop :
    (takeSnapshot twoFrames).call = .snapshot 2 ∧
    (microStep^[1] (takeSnapshot twoFrames)).call = .lenRead 2 19200 ∧
    (microStep^[2] (takeSnapshot twoFrames)).call = .gapRead 2 19200 201 ∧
    (microStep^[3] (takeSnapshot twoFrames)).call = .matched 2 19200 201 0x15 0x01 := by decide

/-- Two equal frames have arrived and the final bit of a third is in progress. -/
def thirdFrameEnding : State :=
  { twoFrames with lastLevelIndex := .half 24, lastHalfBitTime := 208600, lastFlipTime := 208600, recvMsgTime := 190000 }

/-- An edge after the first micro-step that begins a message and commits nothing, and one that commits a message. -/
theorem witness_TryPopIsLinearizableAtItsCursorRead :
    twoFrames.call = .idle ∧
    Move.micros [.micro, .edge ⟨190000, false⟩, .micro, .micro, .micro, .micro] = 5 ∧
    commitCount (Move.edges [.micro, .edge ⟨190000, false⟩, .micro, .micro, .micro, .micro]) twoFrames = 0 ∧
    thirdFrameEnding.call = .idle ∧
    commitCount (Move.edges [.micro, .edge ⟨209200, true⟩, .micro, .micro, .micro, .micro]) thirdFrameEnding = 1 := by
  decide

/-- A delivery, an edge that commits nothing, and a second TRYPOP. -/
theorem witness_TryPopTwiceWithoutACommitIsEmpty :
    (nextOf (tryPopToEnd twoFrames)).map (fun a => (a.handlerPort, commitCount [⟨190000, false⟩] a)) = some ([], 0) ∧
    (((nextOf (tryPopToEnd twoFrames)).bind fun a => nextOf (exec (.edge 190000 false) a)).bind fun b =>
      nextOf (tryPopToEnd b)).map (·.response) = some (some 0) := by decide

/-- What the last micro-step leaves in the current record, and the snapshot of the call (`TryPopFrame`). -/
theorem witness_TryPopFrame :
    (TryPopCall.copied 2 ⟨201, 19200, 0x15, 0x01⟩).cursorSnapshot = some 2 ∧
    (nextOf (step { twoFrames with call := .copied 2 ⟨201, 19200, 0x15, 0x01⟩ })).map
      (fun s => (s.call, s.response, s.slot.record 1)) =
      some (.idle, some 0x100C94B001501, { gapTime := 201, lenTime := 0, cmd := 0x15, adr := 0x01 }) := by decide

/-- A call in progress (`CallInProgressEndsWithoutWaiting`, `ForegroundWaitsForItsCall`): its next word waits. -/
theorem witness_CallInProgress :
    QuietFor 5 { twoFrames with call := .snapshot 2, foregroundPort := [0x400000000] } ∧
    (nextOf (finishCall 5 { twoFrames with call := .snapshot 2, foregroundPort := [0x400000000] })).map
      (fun s => (s.call, s.response, s.foregroundPort)) = some (.idle, some 0x100C94B001501, [0x400000000]) := by
  refine ⟨?_, by decide⟩
  intro a h
  cases h

/-- An edge between two micro-steps, with nothing at the foreground port. -/
theorem witness_StepsFollowTheSchedule :
    twoFrames.foregroundPort = [] ∧
    (nextOf (runSteps 2 { takeSnapshot twoFrames with handlerPort := [some ⟨190000, false⟩, none] })).map
      (fun s => (s.call, s.lastLevelIndex)) = some (.lenRead 2 19200, .half 0) := by decide

/-- Two shortest frames with 75135 and with 75136 microseconds between them: gaps of 586 and of 587 units (V23). -/
theorem witness_ConsensusOfTwoFrames :
    frameLength 1800 (List.replicate 12 (300, 300)) = 9000 ∧
    ((94135 : Time) - (10000 + BitVec.ofNat 32 9000)).toNat / 128 = 586 ∧
    ((94136 : Time) - (10000 + BitVec.ofNat 32 9000)).toNat / 128 = 587 ∧ QuietFor 5 listening := by
  refine ⟨by decide, by decide, by decide, ?_⟩
  intro a h
  cases h

/-- No call is in progress after reset (the lifecycle statements); one that is refuses a foreground operation. -/
theorem witness_OverlappingForegroundOperationsAreRefused :
    State.reset.call = .idle ∧
    exec .init { listening with call := .snapshot 0 } = .refused .foregroundBusy := ⟨rfl, rfl⟩

/-- START replaces `watchLine` from whatever it was (`WatchLineIsReadByNothing`). -/
theorem witness_WatchLineIsReadByNothing :
    step (issuing 0x600000007) = exec (.start 7) { listening with foregroundPort := [], handlerPort := [] } := rfl

theorem witness_IdleBlockHoldsItsState :
    listening.call = .idle ∧ listening.handlerPort = [] ∧ listening.foregroundPort = [] := ⟨rfl, rfl, rfl⟩

end Sys2Proof.Tests
end

/-! The foreground agent's turn in the middle of a call (spec/00_scope.md R9; spec/41_message_reader.md R127). -/

namespace Sys2Proof.Machine

/-- The quiet slot that passes does not matter to the micro-step that follows it. -/
theorem microStep_quiet (s : State) :
    microStep s.quiet = { microStep s with handlerPort := s.handlerPort.tail } :=
  microStep_withHandlerPort s s.handlerPort.tail

/-- Settles O51: `step_busy` gives the micro-step after the quiet slot, and the slot passes through a micro-step. -/
theorem stepOfACallIsOneMicroStep : Obligations.StepOfACallIsOneMicroStep := by
  intro s inCall quiet
  rw [step_busy quiet inCall, microStep_quiet]

end Sys2Proof.Machine

/-! What keeps the invariant of the block (spec/10_state.md R28): one lemma for each effect on the state, assembled
into every EDGE, every micro-step, every operation and every step. -/

namespace Sys2Proof.Machine

section Invariant

variable {s : State}

/-- The invariant looks at no port, no answer and no register of the lifecycle. -/
theorem Inv.frame {en : Bool} {line : Byte} {hp : List (Option EdgeEvent)} {fp : List OpWord}
    {tag : Option EdgeOutcome} {hr r : Option RespWord} (h : Inv s) :
    Inv { s with
      enabled := en, watchLine := line, handlerPort := hp, foregroundPort := fp, edgeOutcome := tag
      handlerResponse := hr, response := r } :=
  ⟨h.store_wf, h.flip_eq_half, h.in_progress_empty, h.len_in_range, h.elapsed, h.error_index, h.call_ok⟩

/-- The call in progress matters to the invariant by its copies only. -/
theorem Inv.withCall (h : Inv s) {c : TryPopCall} (ok : CallOk c) : Inv { s with call := c } :=
  ⟨h.store_wf, h.flip_eq_half, h.in_progress_empty, h.len_in_range, h.elapsed, h.error_index, ok⟩

theorem Inv.endCall (h : Inv s) (q : RespWord) : Inv (s.endCall q) :=
  (h.withCall (c := .idle) trivial).frame

/-- The flag may be cleared where the last edge was a success, and in `GAP` (10_state R28 item 4). -/
theorem Inv.clearTinyError (h : Inv s) (flip : s.lastLevelIndex ≠ .gap → s.lastFlipTime = s.lastHalfBitTime) :
    Inv s.clearTinyError :=
  ⟨h.store_wf, fun _ => flip, h.in_progress_empty, h.len_in_range, h.elapsed, h.error_index, h.call_ok⟩

/-- A store in its form whose records have the durations of the old one, or none, keeps the invariant. -/
theorem Inv.withSlot (h : Inv s) {m : Store} (wf : m.wf = true)
    (len : ∀ j, (m.record j).lenTime = (s.slot.record j).lenTime ∨ (m.record j).lenTime = 0) :
    Inv { s with slot := m } where
  store_wf := wf
  flip_eq_half := h.flip_eq_half
  in_progress_empty active := (len s.cursor).elim (fun same => same.trans (h.in_progress_empty active)) id
  len_in_range j data := by
    have same : memRead m j .lenTime = memRead s.slot j .lenTime := (len j).resolve_right data
    change LenInRange (memRead m j .lenTime)
    rw [same]
    exact h.len_in_range j (same ▸ data)
  elapsed := h.elapsed
  error_index := h.error_index
  call_ok := h.call_ok

/-- The number of a half-bit is at most 24 (10_state R14). -/
theorem toByte_le {x : LevelIndex} (active : x ≠ .gap) : x.toByte.toNat ≤ 24 := by
  cases x with
  | gap => exact absurd rfl active
  | half i =>
    simp only [LevelIndex.toByte, BitVec.toNat_ofNat]
    omega

/-! The effects of EDGE. -/

/-- A soft error arms the flag and leaves the boundary and the store (40_edge_decoder R85). -/
theorem raiseSoft_keepsInv (t : Time) (h : Inv s) : Inv (raiseSoft t s) where
  store_wf := h.store_wf
  flip_eq_half clear := absurd clear (by simp)
  in_progress_empty := h.in_progress_empty
  len_in_range := h.len_in_range
  elapsed := h.elapsed
  error_index := h.error_index
  call_ok := h.call_ok

/-- A hard error in mid-message records a half-bit and returns to `GAP` (40_edge_decoder R86). -/
theorem raiseHard_keepsInv (t : Time) (h : Inv s) (active : s.lastLevelIndex ≠ .gap) : Inv (raiseHard t s) where
  store_wf := h.store_wf
  flip_eq_half _ active := absurd rfl active
  in_progress_empty active := absurd rfl active
  len_in_range := h.len_in_range
  elapsed _ idx := by simp at idx
  error_index := toByte_le active
  call_ok := h.call_ok

/-- A message begins with an empty record and no time elapsed (40_edge_decoder R88). -/
theorem edgeBegin_keepsInv (t : Time) (h : Inv s) : Inv (edgeBegin t s) where
  store_wf := edgeBegin_wf t h.store_wf
  flip_eq_half _ _ := rfl
  in_progress_empty _ := by
    rw [edgeBegin_cursor, memRead, record_edgeBegin, if_pos rfl, get_lenTime]
  len_in_range j data := by
    simp only [memRead, get_lenTime, record_edgeBegin] at data ⊢
    by_cases this : s.cursor = j
    · rw [if_pos this] at data
      exact absurd rfl data
    · rw [if_neg this] at data ⊢
      exact h.len_in_range j data
  elapsed i idx := by
    obtain rfl : 0 = i := by simpa using idx
    simp [sub32, minElapsed, maxElapsed]
  error_index := h.error_index
  call_ok := h.call_ok

/-- The packing of a data bit leaves every duration (40_edge_decoder R92). -/
theorem packBit_keepsInv {k : Nat} (hk : k ≤ 11) (b : Bool) (h : Inv s) : Inv (packBit k b s) := by
  have frame : packBit k b s = { s with slot := (packBit k b s).slot } := by
    rw [packBit_eq]
    split <;> rfl
  rw [frame]
  refine h.withSlot (packBit_wf b hk h.store_wf) fun j => .inl ?_
  rw [record_packBit]
  by_cases this : s.cursor = j
  · rw [if_pos this, withBit_lenTime, this]
  · rw [if_neg this]

/-- The duration `d` lies in the window of half-bit `i` (40_edge_decoder R89 to R91). -/
def InWindow (i : Fin 25) (d : Time) : Prop :=
  (if i.val = 0 then 1800 else 300) ≤ d.toNat ∧
    d.toNat ≤ if i.val = 0 then 3000 else if i.val % 2 = 1 then 900 else 1500

theorem inWindow_active {i : Fin 25} {d : Time} (pos : i.val ≠ 0) (even : i.val % 2 = 0) (lo : 300 ≤ d.toNat)
    (hi : d.toNat ≤ 1500) : InWindow i d := by
  simp only [InWindow, pos, even]
  exact ⟨lo, hi⟩

theorem inWindow_inactive {i : Fin 25} {d : Time} (odd : i.val % 2 = 1) (lo : 300 ≤ d.toNat)
    (hi : d.toNat ≤ 900) : InWindow i d := by
  have pos : i.val ≠ 0 := by omega
  simp only [InWindow, pos, odd]
  exact ⟨lo, hi⟩

/-- A half-bit in its window moves the time elapsed in the message on to the bounds of the next boundary
(40_edge_decoder R104). The sum stays far below 2^32, so no difference of times wraps. -/
theorem Inv.elapsed_succ {t : Time} {i : Fin 25} (h : Inv s) (idx : s.lastLevelIndex = .half i)
    (window : InWindow i (t - s.lastHalfBitTime)) :
    minElapsed (i.val + 1) ≤ (sub32 t s.recvMsgTime).toNat ∧
      (sub32 t s.recvMsgTime).toNat ≤ maxElapsed (i.val + 1) := by
  obtain ⟨lo, hi⟩ := window
  obtain ⟨least, most⟩ := h.elapsed i idx
  have bound : maxElapsed i.val ≤ 30300 := maxElapsed_le i
  have short : (t - s.lastHalfBitTime).toNat ≤ 3000 := by split_ifs at hi <;> omega
  have sum : (sub32 t s.recvMsgTime).toNat =
      (t - s.lastHalfBitTime).toNat + (sub32 s.lastHalfBitTime s.recvMsgTime).toNat := by
    have parts : sub32 t s.recvMsgTime = (t - s.lastHalfBitTime) + sub32 s.lastHalfBitTime s.recvMsgTime :=
      (sub_add_sub_cancel _ _ _).symm
    rw [parts, BitVec.toNat_add, Nat.mod_eq_of_lt (by omega)]
  rw [sum, minElapsed_succ, maxElapsed_succ]
  omega

/-- A half-bit that ends in its window is followed by the next one (40_edge_decoder R89, R90, R93). -/
theorem edgeAdvance_keepsInv {t : Time} {i : Fin 25} (h : Inv s) (idx : s.lastLevelIndex = .half i)
    (last : i.val ≠ 24) (window : InWindow i (t - s.lastHalfBitTime)) : Inv (edgeAdvance t (nextIndex i) s) where
  store_wf := h.store_wf
  flip_eq_half _ _ := rfl
  in_progress_empty _ := h.in_progress_empty (by simp [idx])
  len_in_range := h.len_in_range
  elapsed n next := by
    rw [edgeAdvance_lastLevelIndex, nextIndex_of_lt i (by omega)] at next
    cases next
    exact h.elapsed_succ idx window
  error_index := h.error_index
  call_ok := h.call_ok

/-- A commit writes a duration in range into the record in progress and ends the message (40_edge_decoder R94, R104). -/
theorem edgeCommit_keepsInv {t : Time} (h : Inv s) (idx : s.lastLevelIndex = .half 24)
    (window : InWindow 24 (t - s.lastHalfBitTime)) : Inv (edgeCommit t s) where
  store_wf := edgeCommit_wf t h.store_wf
  flip_eq_half _ _ := rfl
  in_progress_empty active := absurd rfl active
  len_in_range j data := by
    have range : 9000 ≤ (sub32 t s.recvMsgTime).toNat ∧ (sub32 t s.recvMsgTime).toNat ≤ 31800 :=
      h.elapsed_succ idx window
    by_cases this : s.cursor = j
    · subst this
      rw [edgeCommit_slot, memRead_memWrite_self, low16_eq, LenInRange, BitVec.toNat_ofNat]
      omega
    · rw [edgeCommit_slot, memRead_memWrite_ne _ _ _ _ this] at data ⊢
      exact h.len_in_range j data
  elapsed _ idx := by simp at idx
  error_index := h.error_index
  call_ok := h.call_ok

/-- The flag may be cleared before a bit is packed or after it. -/
theorem packBit_clearTinyError (k : Nat) (b : Bool) (s : State) :
    packBit k b s.clearTinyError = (packBit k b s).clearTinyError := by
  simp only [packBit_eq]
  split <;> rfl

/-- Every EDGE keeps the invariant. The normal path clears the flag first; a success or a hard error makes it true
that it may be clear, so it is as good to clear it last. -/
theorem edgeCase_keepsInv {t : Time} {level : Bool} {s' : State} (h : Inv s) (c : EdgeCase t level s s') : Inv s' := by
  cases c with
  | gated off => exact h.frame
  | idle on idx lv => exact h.frame
  | unexpectedSoft on idx lv early clear => exact raiseSoft_keepsInv t h
  | unexpectedHard on idx lv late => exact raiseHard_keepsInv t h idx
  | begins on idx lv => exact edgeBegin_keepsInv t (h.clearTinyError (absurd idx))
  | windowSoft i on idx lv d =>
    have soft : Inv (raiseSoft t s) := raiseSoft_keepsInv t h
    exact soft
  | windowHard i on idx lv d => exact (raiseHard_keepsInv t h (by simp [idx])).clearTinyError (absurd rfl)
  | startBit on idx lv lo hi =>
    exact (edgeAdvance_keepsInv h idx (by decide) ⟨lo, hi⟩).clearTinyError fun _ => rfl
  | inactive i on idx odd lv lo hi =>
    exact (edgeAdvance_keepsInv h idx (by omega) (inWindow_inactive odd lo hi)).clearTinyError fun _ => rfl
  | dataBit i on idx pos even last lv lo hi =>
    rw [packBit_clearTinyError]
    have packed := packBit_keepsInv (k := bitIndex i) (by simp only [bitIndex]; omega)
      (bitValue (t - s.lastHalfBitTime)) h
    have window := inWindow_active pos even lo hi
    exact (edgeAdvance_keepsInv packed (by simpa using idx) last (by simpa using window)).clearTinyError fun _ => rfl
  | commit on idx lv lo hi =>
    rw [packBit_clearTinyError]
    have packed := packBit_keepsInv (k := 11) le_rfl (bitValue (t - s.lastHalfBitTime)) h
    have window : InWindow 24 (t - s.lastHalfBitTime) := inWindow_active (by decide) (by decide) lo hi
    exact (edgeCommit_keepsInv packed (by simpa using idx) (by simpa using window)).clearTinyError (absurd rfl)

/-! The other operations and the step. -/

/-- Every micro-step keeps the invariant: it reads fields that are in range, and its one write is of 0
(41_message_reader R123 to R126). -/
theorem microCase_keepsInv {s' : State} (h : Inv s) (c : MicroCase s s') : Inv s' := by
  have ok := h.call_ok
  have fits := (wf_iff s.slot).mp h.store_wf
  cases c with
  | none call => exact h
  | noData c call len => exact h.endCall _
  | len c call len => exact h.withCall (h.len_in_range (c + 3) len)
  | firstPress c l call gap => exact h.endCall _
  | gap c l call gap =>
    rw [call] at ok
    exact h.withCall ⟨ok, gap⟩
  | mismatch c l g call ne => exact h.endCall _
  | agree c l g call adr cmd =>
    rw [call] at ok
    obtain ⟨len, gap⟩ := ok
    exact h.withCall ⟨len, gap, fits (c + 3)⟩
  | copy c l g x y call =>
    rw [call] at ok
    exact h.withCall ok
  | deliver c m call =>
    refine Inv.endCall (h.withSlot (m := memWrite s.slot (c + 3) .lenTime 0) (deliver_wf c m h.store_wf) fun j => ?_) _
    rw [record_memWrite]
    split
    · exact .inr rfl
    · exact .inl rfl

/-- INIT makes every register and every record 0 (42_lifecycle_diag R140): the invariant holds whatever stood there. -/
theorem inv_resetDecoder (ok : CallOk s.call) : Inv (resetDecoder s) where
  store_wf := store_zero_wf
  flip_eq_half _ _ := rfl
  in_progress_empty active := absurd rfl active
  len_in_range j data := absurd (by simp [resetDecoder, memRead, MessageRecord.zero]) data
  elapsed _ idx := by simp [resetDecoder] at idx
  error_index := Nat.zero_le _
  call_ok := ok

/-- A foreground operation keeps the invariant if its effect does. -/
theorem foreground_keepsInv {effect : State → State} {s' : State} (next : foreground effect s = .next s')
    (keeps : Inv (effect s)) : Inv s' := by
  obtain ⟨-, rfl⟩ := foreground_next next
  exact keeps

/-- Every operation keeps the invariant. -/
theorem exec_keepsInv {i : Instr} {s' : State} (h : Inv s) (next : exec i s = .next s') : Inv s' := by
  cases i with
  | edge t level => exact edgeCase_keepsInv h (edgeCase_of_next next)
  | tryPop =>
    exact foreground_keepsInv ((exec_tryPop_eq s).symm.trans next) (h.withCall (c := .snapshot s.cursor) trivial)
  | init => exact foreground_keepsInv ((exec_init_eq s).symm.trans next) (inv_resetDecoder h.call_ok).frame
  | start line => exact foreground_keepsInv ((exec_start_eq line s).symm.trans next) h.frame
  | stop line => exact foreground_keepsInv ((exec_stop_eq line s).symm.trans next) h.frame
  | errIdx => exact foreground_keepsInv ((exec_errIdx_eq s).symm.trans next) h.frame
  | reserved6 payload => exact foreground_keepsInv ((exec_reserved6_eq payload s).symm.trans next) h.frame
  | reserved7 payload => exact foreground_keepsInv ((exec_reserved7_eq payload s).symm.trans next) h.frame

/-- Every word keeps the invariant, also one that is no operation (30_encoding R67). -/
theorem runWord_keepsInv {w : OpWord} {s' : State} (h : Inv s) (next : runWord w s = .next s') : Inv s' := by
  unfold runWord at next
  split at next
  · exact exec_keepsInv h next
  · exact foreground_keepsInv next h.frame

end Invariant

/-- Settles O50: every kind of step of `step_cases` keeps the invariant, and taking a word or a quiet slot from a port
does not touch it. -/
theorem everyStepKeepsTheInvariant : Obligations.EveryStepKeepsTheInvariant := by
  intro s s' h next
  have quiet : Inv s.quiet := h.frame
  rcases step_cases s with ⟨e, rest, -, run⟩ | ⟨-, ⟨-, run⟩ | ⟨-, -, run⟩ | ⟨w, rest, -, -, run⟩⟩ <;> rw [run] at next
  · exact exec_keepsInv h.frame next
  · cases next
    exact microCase_keepsInv quiet (microStep_cases s.quiet)
  · cases next
    exact quiet
  · exact runWord_keepsInv quiet.frame next

/-- Settles O49: the registers and records after power-on are those INIT makes. -/
theorem invariantHoldsAtReset : Obligations.InvariantHoldsAtReset := by
  have inv : Inv (resetDecoder State.reset) := inv_resetDecoder trivial
  exact inv

/-- Settles O48: the values that `State.reset` is written with, the store being four zero records. -/
theorem resetValues : Obligations.ResetValues :=
  ⟨rfl, rfl, rfl, rfl, rfl, rfl, rfl, rfl, rfl, rfl, rfl⟩

/-! `watchLine` through each part of the block: nothing reads it (spec/10_state.md R25). -/

/-- The state with another line to watch. -/
def State.withWatchLine (s : State) (v : Byte) : State := { s with watchLine := v }

@[simp] theorem withWatchLine_call (s : State) (v : Byte) : (s.withWatchLine v).call = s.call := rfl

theorem packBit_withWatchLine (k : Nat) (b : Bool) (s : State) (v : Byte) :
    packBit k b (s.withWatchLine v) = (packBit k b s).withWatchLine v := by
  simp only [packBit_eq]
  split <;> rfl

/-- The case of an EDGE does not depend on `watchLine`, and no case writes it. -/
theorem edgeCase_withWatchLine {t : Time} {level : Bool} {s s' : State} (c : EdgeCase t level s s') (v : Byte) :
    EdgeCase t level (s.withWatchLine v) (s'.withWatchLine v) := by
  cases c with
  | gated off => exact .gated off
  | idle on idx lv => exact .idle on idx lv
  | unexpectedSoft on idx lv early clear => exact .unexpectedSoft on idx lv early clear
  | unexpectedHard on idx lv late => exact .unexpectedHard on idx lv late
  | begins on idx lv => exact .begins on idx lv
  | windowSoft i on idx lv d => exact .windowSoft i on idx lv d
  | windowHard i on idx lv d => exact .windowHard i on idx lv d
  | startBit on idx lv lo hi => exact .startBit on idx lv lo hi
  | inactive i on idx odd lv lo hi => exact .inactive i on idx odd lv lo hi
  | dataBit i on idx pos even last lv lo hi =>
    have c := EdgeCase.dataBit (s := s.withWatchLine v) i on idx pos even last lv lo hi
    have packed := packBit_withWatchLine (bitIndex i) (bitValue (t - s.lastHalfBitTime)) s.clearTinyError v
    exact (congrArg (EdgeCase t level _ <| edgeAdvance t (nextIndex i) ·) packed).mp c
  | commit on idx lv lo hi =>
    have c := EdgeCase.commit (s := s.withWatchLine v) on idx lv lo hi
    have packed := packBit_withWatchLine 11 (bitValue (t - s.lastHalfBitTime)) s.clearTinyError v
    exact (congrArg (EdgeCase t level _ <| edgeCommit t ·) packed).mp c

/-- A micro-step does not look at `watchLine`. -/
theorem microStep_withWatchLine (s : State) (v : Byte) :
    microStep (s.withWatchLine v) = (microStep s).withWatchLine v := by
  unfold microStep
  rw [withWatchLine_call]
  cases s.call with
  | idle => rfl
  | snapshot c =>
    simp only [checkLen_eq, apply_ite (State.withWatchLine · v)]
    rfl
  | lenRead c l =>
    simp only [checkGap_eq, apply_ite (State.withWatchLine · v)]
    rfl
  | gapRead c l g =>
    simp only [checkMatch_eq, apply_ite (State.withWatchLine · v)]
    rfl
  | matched c l g x y => rfl
  | copied c m => rfl

/-- If a foreground operation's effect does not depend on `watchLine`, nor does its answer. -/
theorem foreground_withWatchLine {effect : State → State} {s s' : State} {v v' : Byte}
    (next : foreground effect s = .next s') (alike : effect (s.withWatchLine v) = (effect s).withWatchLine v') :
    ∃ v', foreground effect (s.withWatchLine v) = .next (s'.withWatchLine v') := by
  obtain ⟨idle, rfl⟩ := foreground_next next
  exact ⟨v', alike ▸ foreground_idle idle⟩

/-- No operation reads `watchLine`. START alone writes it, with its own operand (42_lifecycle_diag R141). -/
theorem exec_withWatchLine {i : Instr} {s s' : State} (v : Byte) (next : exec i s = .next s') :
    ∃ v', exec i (s.withWatchLine v) = .next (s'.withWatchLine v') := by
  cases i with
  | edge t level => exact ⟨v, exec_of_edgeCase (edgeCase_withWatchLine (edgeCase_of_next next) v)⟩
  | start line =>
    exact foreground_withWatchLine (v' := if Config.lineOk line then line else v)
      ((exec_start_eq line s).symm.trans next) rfl
  | tryPop => exact foreground_withWatchLine (v' := v) ((exec_tryPop_eq s).symm.trans next) rfl
  | init => exact foreground_withWatchLine (v' := v) ((exec_init_eq s).symm.trans next) rfl
  | stop line => exact foreground_withWatchLine (v' := v) ((exec_stop_eq line s).symm.trans next) rfl
  | errIdx => exact foreground_withWatchLine (v' := v) ((exec_errIdx_eq s).symm.trans next) rfl
  | reserved6 payload => exact foreground_withWatchLine (v' := v) ((exec_reserved6_eq payload s).symm.trans next) rfl
  | reserved7 payload => exact foreground_withWatchLine (v' := v) ((exec_reserved7_eq payload s).symm.trans next) rfl

/-- No word runs otherwise for another `watchLine`, also one that is no operation (30_encoding R67). -/
theorem runWord_withWatchLine {w : OpWord} {s s' : State} (v : Byte) (next : runWord w s = .next s') :
    ∃ v', runWord w (s.withWatchLine v) = .next (s'.withWatchLine v') := by
  unfold runWord at next ⊢
  split at next
  · exact exec_withWatchLine v next
  · exact foreground_withWatchLine (v' := v) next rfl

/-- Settles O43: the ports do not look at `watchLine`, so the two states take the same kind of step of `step_cases`,
and each kind goes on alike. -/
theorem watchLineIsReadByNothing : Obligations.WatchLineIsReadByNothing := by
  intro s s' v next
  change ∃ v', step (s.withWatchLine v) = .next (s'.withWatchLine v')
  rcases step_cases s with ⟨e, rest, port, run⟩ | ⟨turn, ⟨busy, run⟩ | ⟨idle, empty, run⟩ | ⟨w, rest, idle, word, run⟩⟩
    <;> rw [run] at next
  · rw [step_edge (s := s.withWatchLine v) port]
    exact exec_withWatchLine v next
  · cases next
    rw [step_busy (s := s.withWatchLine v) turn busy]
    exact ⟨v, congrArg _ (microStep_withWatchLine s.quiet v)⟩
  · cases next
    exact ⟨v, step_idle (s := s.withWatchLine v) turn idle empty⟩
  · rw [step_foreground (s := s.withWatchLine v) turn idle word]
    exact runWord_withWatchLine v next

end Sys2Proof.Machine

/-! The frame of EDGE, part by part (spec/20_memory.md R46), and the foreground agent that waits for its call. -/

namespace Sys2Proof.Machine

section EdgeFrame

variable {t : Time} {level : Bool} {s s' : State}

/-- Bit packing writes the store only (40_edge_decoder R92). -/
theorem packBit_frame (k : Nat) (b : Bool) (s : State) : packBit k b s = { s with slot := (packBit k b s).slot } := by
  rw [packBit_eq]
  split <;> rfl

/-- EDGE writes the store, registers of the decoder and its own answer, and nothing else. -/
theorem edgeCase_frame (c : EdgeCase t level s s') :
    s' = { s with
      lastLevelIndex := s'.lastLevelIndex, lastHalfBitTime := s'.lastHalfBitTime, lastFlipTime := s'.lastFlipTime
      lastErrorAtLevelIndex := s'.lastErrorAtLevelIndex, requestTinyErrorLevel := s'.requestTinyErrorLevel
      lastMsgTime := s'.lastMsgTime, recvMsgTime := s'.recvMsgTime, cursor := s'.cursor, slot := s'.slot
      edgeOutcome := s'.edgeOutcome, handlerResponse := s'.handlerResponse } := by
  cases c with
  | dataBit i on idx pos even last lv lo hi => rw [packBit_frame]; rfl
  | commit on idx lv lo hi => rw [packBit_frame]; rfl
  | _ => rfl

theorem edgeCase_call (c : EdgeCase t level s s') : s'.call = s.call := by rw [edgeCase_frame c]

theorem edgeCase_foregroundPort (c : EdgeCase t level s s') : s'.foregroundPort = s.foregroundPort := by
  rw [edgeCase_frame c]

/-- EDGE writes no record but the one in progress (20_memory R46). -/
theorem edgeCase_record_ne {j : SlotIndex} (c : EdgeCase t level s s') (other : j ≠ s.cursor) :
    s'.slot.record j = s.slot.record j := by
  cases c with
  | begins on idx lv => simp [-edgeBegin_slot, record_edgeBegin, other.symm]
  | dataBit i on idx pos even last lv lo hi => simp [record_packBit, other.symm]
  | commit on idx lv lo hi => simp [-edgeCommit_slot, record_edgeCommit, record_packBit, other.symm]
  | _ => rfl

/-- A commit advances the cursor by one, and nothing else moves it (10_state R18). -/
theorem edgeCase_cursor (c : EdgeCase t level s s') :
    s'.cursor = if s'.edgeOutcome = some .messageCommitted then s.cursor + 1 else s.cursor := by
  cases c with
  | commit on idx lv lo hi => rw [edgeCommit_edgeOutcome, if_pos rfl, edgeCommit_cursor, packBit_cursor]; rfl
  | dataBit i on idx pos even last lv lo hi => rw [edgeAdvance_cursor, packBit_cursor]; rfl
  | _ => rfl

/-- Only a commit writes the time of the last message (10_state R16). -/
theorem edgeCase_lastMsgTime (c : EdgeCase t level s s') (uncommitted : s'.edgeOutcome ≠ some .messageCommitted) :
    s'.lastMsgTime = s.lastMsgTime := by
  cases c with
  | commit on idx lv lo hi => exact absurd rfl uncommitted
  | dataBit i on idx pos even last lv lo hi => rw [edgeAdvance_lastMsgTime, packBit_lastMsgTime]; rfl
  | _ => rfl

/-- An edge that is ignored or that raises an error leaves the store and the message's two times (10_state R12, R17). -/
theorem edgeCase_unsuccessful (c : EdgeCase t level s s')
    (tag : s'.edgeOutcome = some .ignored ∨ s'.edgeOutcome = some .softError ∨ s'.edgeOutcome = some .hardError) :
    s'.slot = s.slot ∧ s'.lastHalfBitTime = s.lastHalfBitTime ∧ s'.recvMsgTime = s.recvMsgTime := by
  cases c with
  | begins | startBit | inactive | dataBit | commit => simp at tag
  | _ => exact ⟨rfl, rfl, rfl⟩

/-- Only a hard error writes the diagnostic register (10_state R14). -/
theorem edgeCase_lastErrorAtLevelIndex (c : EdgeCase t level s s') (soft : s'.edgeOutcome ≠ some .hardError) :
    s'.lastErrorAtLevelIndex = s.lastErrorAtLevelIndex := by
  cases c with
  | unexpectedHard | windowHard => exact absurd rfl soft
  | dataBit | commit => simp
  | _ => rfl

end EdgeFrame

/-- Settles O21: the parts of the frame, each from the cases of EDGE. -/
theorem edgeFrame : Obligations.EdgeFrame := by
  intro s s' t level next
  have c := edgeCase_of_next next
  have frame := edgeCase_frame c
  refine ⟨by rw [frame], by rw [frame], edgeCase_call c, by rw [frame], by rw [frame], edgeCase_foregroundPort c,
    ?_, ?_, edgeCase_unsuccessful c, edgeCase_lastErrorAtLevelIndex c⟩
  · intro j w f other
    rw [memRead, edgeCase_record_ne c other, memRead]
  · intro uncommitted
    exact ⟨(edgeCase_cursor c).trans (if_neg uncommitted), edgeCase_lastMsgTime c uncommitted⟩

/-- Settles O46: a step in the middle of a call is an edge or a micro-step, and neither takes a word from the
foreground port. -/
theorem foregroundWaitsForItsCall : Obligations.ForegroundWaitsForItsCall := by
  intro s s' inCall next
  rcases step_cases s with ⟨e, rest, -, run⟩ | ⟨-, ⟨-, run⟩ | ⟨idle, -, -⟩ | ⟨w, rest, idle, -, -⟩⟩
  · rw [run] at next
    have kept := edgeCase_foregroundPort (edgeCase_of_next next)
    exact kept
  · rw [run] at next
    cases next
    rw [microCase_frame (microStep_cases s.quiet)]
    rfl
  · exact absurd idle inCall
  · exact absurd idle inCall

end Sys2Proof.Machine

/-! EDGE beside the foreground agent: what the agent writes outside the record in progress does not matter to EDGE. So
the edges and the micro-steps follow the handler port (spec/20_memory.md R48), and an edge commutes with the micro-steps
of a TRYPOP that does not read the record in progress (spec/20_memory.md R53; spec/41_message_reader.md R127). -/

namespace Sys2Proof.Machine

/-- An edit of the store that neither reads nor writes slot `i`. -/
def LeavesSlot (i : SlotIndex) (edit : Store → Store) : Prop :=
  ∀ m r, edit (m.setRecord i r) = (edit m).setRecord i r

theorem setRecord_record (m : Store) (i : SlotIndex) : m.setRecord i (m.record i) = m := by
  apply store_ext
  intro j
  rw [record_setRecord]
  split
  case isTrue same => rw [same]
  case isFalse => rfl

/-- The record in a slot that an edit leaves is the same after it. -/
theorem LeavesSlot.record {i : SlotIndex} {edit : Store → Store} (leaves : LeavesSlot i edit) (m : Store) :
    (edit m).record i = m.record i := by
  calc (edit m).record i
    _ = (edit (m.setRecord i (m.record i))).record i := by rw [setRecord_record]
    _ = m.record i := by rw [leaves, record_setRecord_self]

/-- An edit that leaves a slot may be made before a write to it or after. -/
theorem LeavesSlot.memWrite {i : SlotIndex} {edit : Store → Store} (leaves : LeavesSlot i edit) {w : Nat} (m : Store)
    (f : SlotField w) (v : BitVec w) : edit (memWrite m i f v) = memWrite (edit m) i f v := by
  rw [Machine.memWrite, leaves, Machine.memWrite, leaves.record]

theorem leavesSlot_id (i : SlotIndex) : LeavesSlot i id := fun _ _ => rfl

/-- A write to one slot leaves every other (20_memory R41). -/
theorem leavesSlot_memWrite {i j : SlotIndex} (ne : i ≠ j) {w : Nat} (f : SlotField w) (v : BitVec w) :
    LeavesSlot i (Machine.memWrite · j f v) := by
  intro m r
  apply store_ext
  intro k
  simp only [record_memWrite, record_setRecord, if_neg ne]
  by_cases here : j = k
  · rw [if_pos here, if_pos here, if_neg (here ▸ ne)]
  · rw [if_neg here, if_neg here]

/-- The state after an edit of what EDGE does not look at: the store beside the record in progress, the schedule, the
call and its response. -/
def State.beside (s : State) (store : Store → Store) (port : List (Option EdgeEvent) → List (Option EdgeEvent))
    (call : TryPopCall → TryPopCall) (response : Option RespWord → Option RespWord) : State :=
  { s with
    slot := store s.slot, handlerPort := port s.handlerPort, call := call s.call, response := response s.response }

section Beside

variable {store : Store → Store} {port : List (Option EdgeEvent) → List (Option EdgeEvent)}
  {call : TryPopCall → TryPopCall} {response : Option RespWord → Option RespWord} {s s' : State}

/-- To make an effect beside an edit, it is enough to do so on the store. -/
theorem eq_beside {u : State} (frame : u = { s.beside store port call response with slot := u.slot })
    (slot : u.slot = store s.slot) : u = s.beside store port call response :=
  frame.trans (congrArg (fun m => { s.beside store port call response with slot := m }) slot)

theorem edgeBegin_beside (leaves : LeavesSlot s.cursor store) (t : Time) :
    edgeBegin t (s.beside store port call response) = (edgeBegin t s).beside store port call response :=
  eq_beside rfl (by simp [State.beside, leaves.memWrite])

theorem packBit_beside (leaves : LeavesSlot s.cursor store) (k : Nat) (b : Bool) :
    packBit k b (s.beside store port call response) = (packBit k b s).beside store port call response := by
  rw [packBit_eq, packBit_eq]
  split_ifs <;> exact eq_beside rfl (by simp [State.beside, leaves.memWrite, leaves.record])

theorem edgeCommit_beside (leaves : LeavesSlot s.cursor store) (t : Time) :
    edgeCommit t (s.beside store port call response) = (edgeCommit t s).beside store port call response :=
  eq_beside rfl (by simp [State.beside, leaves.memWrite])

/-- EDGE does the same beside such an edit. -/
theorem edgeCase_beside {t : Time} {level : Bool} (c : EdgeCase t level s s') (leaves : LeavesSlot s.cursor store) :
    EdgeCase t level (s.beside store port call response) (s'.beside store port call response) := by
  cases c with
  | gated off => exact .gated off
  | idle on idx lv => exact .idle on idx lv
  | unexpectedSoft on idx lv early clear => exact .unexpectedSoft on idx lv early clear
  | unexpectedHard on idx lv late => exact .unexpectedHard on idx lv late
  | begins on idx lv =>
    rw [← edgeBegin_beside (s := s.clearTinyError) leaves]
    exact .begins on idx lv
  | windowSoft i on idx lv d => exact .windowSoft i on idx lv d
  | windowHard i on idx lv d => exact .windowHard i on idx lv d
  | startBit on idx lv lo hi => exact .startBit on idx lv lo hi
  | inactive i on idx odd lv lo hi => exact .inactive i on idx odd lv lo hi
  | dataBit i on idx pos even last lv lo hi =>
    have c := EdgeCase.dataBit (s := s.beside store port call response) i on idx pos even last lv lo hi
    have packed := packBit_beside (port := port) (call := call) (response := response) (s := s.clearTinyError)
      leaves (bitIndex i) (bitValue (t - s.lastHalfBitTime))
    exact (congrArg (EdgeCase t level _ <| edgeAdvance t (nextIndex i) ·) packed).mp c
  | commit on idx lv lo hi =>
    have c := EdgeCase.commit (s := s.beside store port call response) on idx lv lo hi
    have packed := packBit_beside (port := port) (call := call) (response := response) (s := s.clearTinyError)
      leaves 11 (bitValue (t - s.lastHalfBitTime))
    rw [← edgeCommit_beside (by simpa using leaves)]
    exact (congrArg (EdgeCase t level _ <| edgeCommit t ·) packed).mp c

end Beside

/-! The handler port is the schedule. -/

/-- EDGE does not look at the edges to come. -/
theorem edgeCase_withHandlerPort {t : Time} {level : Bool} {s s' : State} (c : EdgeCase t level s s')
    (port : List (Option EdgeEvent)) :
    EdgeCase t level { s with handlerPort := port } { s' with handlerPort := port } :=
  edgeCase_beside (port := fun _ => port) (call := id) (response := id) c (leavesSlot_id s.cursor)

/-- A quiet slot is one chance of the foreground agent to move: with no word to issue, it makes the next micro-step of
its call, if it has one. -/
theorem step_quiet_slot {s : State} (noWord : s.foregroundPort = []) (rest : List (Option EdgeEvent)) :
    step { s with handlerPort := none :: rest } = .next { microStep s with handlerPort := rest } := by
  have turn : ForegroundMoves { s with handlerPort := none :: rest } := by simp [ForegroundMoves]
  by_cases idle : s.call = .idle
  · rw [step_idle turn idle noWord, microStep_idle idle]
    rfl
  · rw [step_busy turn idle, ← microStep_withHandlerPort]
    rfl

/-- An edge at the handler port runs, and leaves the edges behind it. -/
theorem step_edge_slot {s s' : State} {e : EdgeEvent} (c : EdgeCase e.timestamp e.level s s')
    (rest : List (Option EdgeEvent)) :
    step { s with handlerPort := some e :: rest } = .next { s' with handlerPort := rest } := by
  rw [step_edge rfl]
  exact exec_of_edgeCase (edgeCase_withHandlerPort c rest)

/-- Settles O52, by induction on the moves: each is the step that its entry at the handler port makes. -/
theorem stepsFollowTheSchedule : Obligations.StepsFollowTheSchedule := by
  intro s moves
  induction moves generalizing s with
  | nil => exact fun _ => rfl
  | cons move moves ih =>
    intro noWord
    cases move with
    | edge e =>
      obtain ⟨s', -, c⟩ := execEdge_cases e.timestamp e.level s
      have run := exec_of_edgeCase (edgeCase_withHandlerPort c [])
      have first := step_edge_slot c (moves.map Move.entry)
      simp only [List.length_cons, List.map_cons, Move.entry, runSteps, runMoves, run, first]
      exact ih s' ((edgeCase_foregroundPort c).trans noWord)
    | micro =>
      have first := step_quiet_slot noWord (moves.map Move.entry)
      have noWord' : (microStep s).foregroundPort = [] := by
        rw [microCase_frame (microStep_cases s)]
        exact noWord
      simp only [List.length_cons, List.map_cons, Move.entry, runSteps, runMoves, first, microStep_withHandlerPort]
      exact ih (microStep s) noWord'

/-! Edges and micro-steps commute. -/

/-- The TRYPOP in progress reads and writes other records than the one in progress. -/
def CallBeside (s : State) : Prop :=
  ∀ c, s.call.cursorSnapshot = some c → s.cursor ≠ c + 2 ∧ s.cursor ≠ c + 3

/-- A micro-step keeps the cursor snapshot until the call ends (41_message_reader R121). -/
theorem microCase_cursorSnapshot {s s' : State} {c : SlotIndex} (m : MicroCase s s')
    (snapshot : s'.call.cursorSnapshot = some c) : s.call.cursorSnapshot = some c := by
  cases m with
  | none call => exact snapshot
  | noData | firstPress | mismatch | deliver => cases snapshot
  | len _ call | gap _ _ call | agree _ _ _ call | copy _ _ _ _ _ call => rwa [call]

theorem CallBeside.microStep {s : State} (apart : CallBeside s) : CallBeside (microStep s) := by
  have m := microStep_cases s
  intro c snapshot
  rw [microCase_frame m]
  exact apart c (microCase_cursorSnapshot m snapshot)

section Commute

variable {t : Time} {level : Bool} {s s' : State}

/-- EDGE does not look at the call in progress. -/
theorem edgeCase_withCall (e : EdgeCase t level s s') (call : TryPopCall) :
    EdgeCase t level { s with call := call } { s' with call := call } :=
  edgeCase_beside (port := id) (call := fun _ => call) (response := id) e (leavesSlot_id s.cursor)

/-- EDGE does not look at the end of a call. -/
theorem edgeCase_endCall (e : EdgeCase t level s s') (q : RespWord) : EdgeCase t level (s.endCall q) (s'.endCall q) :=
  edgeCase_beside (port := id) (call := fun _ => .idle) (response := fun _ => some q) e (leavesSlot_id s.cursor)

/-- EDGE does not look at a delivery from another record (41_message_reader R126). -/
theorem edgeCase_deliver {c : SlotIndex} (e : EdgeCase t level s s') (m : MessageRecord) (other : s.cursor ≠ c + 3) :
    EdgeCase t level (deliver c m s) (deliver c m s') :=
  edgeCase_beside (port := id) (call := fun _ => .idle) (response := fun _ => some (respMessage m)) e
    (leavesSlot_memWrite other .lenTime 0)

/-- An edge commutes with a micro-step of a call that reads other records: it may come before it or after
(20_memory R53). -/
theorem edgeCase_microStep (e : EdgeCase t level s s') (apart : CallBeside s) :
    EdgeCase t level (microStep s) (microStep s') := by
  unfold microStep
  rw [edgeCase_call e]
  cases inCall : s.call with
  | idle => exact e
  | snapshot c =>
    obtain ⟨-, cur⟩ := apart c (by rw [inCall]; rfl)
    simp only [checkLen_eq, edgeCase_record_ne e cur.symm]
    split
    · exact edgeCase_endCall e _
    · exact edgeCase_withCall e _
  | lenRead c l =>
    obtain ⟨-, cur⟩ := apart c (by rw [inCall]; rfl)
    simp only [checkGap_eq, edgeCase_record_ne e cur.symm]
    split
    · exact edgeCase_endCall e _
    · exact edgeCase_withCall e _
  | gapRead c l g =>
    obtain ⟨prev, cur⟩ := apart c (by rw [inCall]; rfl)
    simp only [checkMatch_eq, edgeCase_record_ne e cur.symm, edgeCase_record_ne e prev.symm]
    split
    · exact edgeCase_endCall e _
    · exact edgeCase_withCall e _
  | matched c l g x y => exact edgeCase_withCall e _
  | copied c m =>
    obtain ⟨-, cur⟩ := apart c (by rw [inCall]; rfl)
    exact edgeCase_deliver e m cur

theorem edgeCase_iterate_microStep (e : EdgeCase t level s s') (apart : CallBeside s) (n : Nat) :
    EdgeCase t level (microStep^[n] s) (microStep^[n] s') := by
  induction n generalizing s s' with
  | zero => exact e
  | succ n ih => exact ih (edgeCase_microStep e apart) apart.microStep

end Commute

/-- The state with a TRYPOP in progress that took the cursor snapshot `c`. -/
def State.reading (s : State) (c : SlotIndex) : State := { s with call := .snapshot c }

/-- With the cursor at the snapshot or one further, the record in progress is not one that the call reads: those are the
second and the third after the snapshot (41_message_reader R122). -/
theorem callBeside_reading {s : State} {c : SlotIndex} (near : (s.cursor - c).toNat < 2) :
    CallBeside (s.reading c) := by
  intro c' snapshot
  obtain rfl : c = c' := by simpa [State.reading, TryPopCall.cursorSnapshot] using snapshot
  change s.cursor ≠ c + 2 ∧ s.cursor ≠ c + 3
  bv_omega

/-- A TRYPOP `n` micro-steps after its snapshot `c`, as long as the cursor is less than two commits from `c` at the last
edge: the edges may all wait for the micro-steps. By induction on the moves; the commits are counted in the state
without the call. -/
theorem runMoves_reading {c : SlotIndex} (moves : List Move) (s : State) (n : Nat)
    (few : (s.cursor - c).toNat + commitCount (Move.edges moves) s < 2) :
    runMoves moves (microStep^[n] (s.reading c)) =
      runEdges (Move.edges moves) (microStep^[n + Move.micros moves] (s.reading c)) := by
  induction moves generalizing s n with
  | nil => rfl
  | cons move moves ih =>
    cases move with
    | micro =>
      calc runMoves (.micro :: moves) (microStep^[n] (s.reading c))
        _ = runMoves moves (microStep^[n + 1] (s.reading c)) := by rw [runMoves, Function.iterate_succ_apply']
        _ = runEdges (Move.edges moves) (microStep^[n + 1 + Move.micros moves] (s.reading c)) := ih s (n + 1) few
        _ = _ := by rw [Nat.add_right_comm, Nat.add_assoc]; rfl
    | edge e =>
      obtain ⟨s', next, after⟩ := execEdge_cases e.timestamp e.level s
      have near : (s.cursor - c).toNat < 2 := by omega
      have run (k : Nat) : exec (.edge e.timestamp e.level) (microStep^[k] (s.reading c)) =
          .next (microStep^[k] (s'.reading c)) :=
        exec_of_edgeCase (edgeCase_iterate_microStep (edgeCase_withCall after _) (callBeside_reading near) k)
      have few' : (s'.cursor - c).toNat + commitCount (Move.edges moves) s' < 2 := by
        simp only [Move.edges, commitCount, next] at few
        rw [edgeCase_cursor after]
        split at few
        case isTrue commit => rw [if_pos commit]; bv_omega
        case isFalse commit => rw [if_neg commit]; omega
      simp only [runMoves, Move.edges, Move.micros, runEdges, run]
      exact ih s' n few'

/-- Settles O32: the edges commute with the micro-steps, so they may all come after the six micro-steps. -/
theorem tryPopIsLinearizableAtItsCursorRead : Obligations.TryPopIsLinearizableAtItsCursorRead := by
  intro s moves _ micros few
  have start : (s.cursor - s.cursor).toNat + commitCount (Move.edges moves) s < 2 := by simpa using few
  have commuted := runMoves_reading moves s 0 start
  rw [micros] at commuted
  exact commuted

end Sys2Proof.Machine

/-! The operation word: its fields, its formats, and the decoder as the inverse of the encoder (spec/30_encoding.md R61
to R63, R67). Everything about `decode` follows from `decode_cases`: a word is the encoding of an operation, or it
sets a must-be-zero bit. -/

namespace Sys2Proof

/-! The fields as numbers. -/

/-- Fields side by side as a number. -/
theorem toNat_append_eq_add {n m : Nat} (a : BitVec n) (b : BitVec m) : (a ++ b).toNat = a.toNat * 2 ^ m + b.toNat := by
  rw [BitVec.toNat_append, ← Nat.shiftLeft_add_eq_or_of_lt b.isLt, Nat.shiftLeft_eq]

theorem opField_toNat (w : OpWord) : (opField w).toNat = w.toNat / 2 ^ 33 := by
  have : w.toNat < 2 ^ 36 := w.isLt
  simp only [opField, BitVec.extractLsb'_toNat, Nat.shiftRight_eq_div_pow]
  omega

theorem timestampField_toNat (w : OpWord) : (timestampField w).toNat = w.toNat % 2 ^ 32 := by
  simp [timestampField]

theorem levelField_eq_true_iff (w : OpWord) : levelField w = true ↔ w.toNat / 2 ^ 32 % 2 = 1 := by
  simp [levelField, BitVec.getLsbD, Nat.testBit_eq_decide_div_mod_eq]

theorem lineField_toNat (w : OpWord) : (lineField w).toNat = w.toNat % 2 ^ 8 := by
  simp [lineField]

theorem zeroFieldL_toNat (w : OpWord) : (zeroFieldL w).toNat = w.toNat / 2 ^ 8 % 2 ^ 25 := by
  simp [zeroFieldL, Nat.shiftRight_eq_div_pow]

theorem lowField_toNat (w : OpWord) : (lowField w).toNat = w.toNat % 2 ^ 33 := by
  simp [lowField]

/-! The fields of a word in each format. -/

/-- Below the operation number of a format E word stand the level and the timestamp. -/
theorem formatE_eq_formatN (op : BitVec 3) (level : Bool) (t : Time) :
    formatE op level t = formatN op (BitVec.ofBool level ++ t) := BitVec.append_assoc

/-- Below the operation number of a format L word stand the zero bits and the line. -/
theorem formatL_eq_formatN (op : BitVec 3) (n : Byte) : formatL op n = formatN op ((0 : BitVec 25) ++ n) :=
  BitVec.append_assoc

@[simp] theorem opField_formatN (op : BitVec 3) (low : BitVec 33) : opField (formatN op low) = op :=
  BitVec.extractLsb'_append_eq_left

@[simp] theorem lowField_formatN (op : BitVec 3) (low : BitVec 33) : lowField (formatN op low) = low :=
  BitVec.extractLsb'_append_eq_right

@[simp] theorem opField_formatE (op : BitVec 3) (level : Bool) (t : Time) : opField (formatE op level t) = op := by
  rw [formatE_eq_formatN, opField_formatN]

@[simp] theorem timestampField_formatE (op : BitVec 3) (level : Bool) (t : Time) :
    timestampField (formatE op level t) = t := BitVec.extractLsb'_append_eq_right

@[simp] theorem levelField_formatE (op : BitVec 3) (level : Bool) (t : Time) :
    levelField (formatE op level t) = level := by
  rw [levelField, formatE, BitVec.getLsbD_append, if_neg (by decide), BitVec.getLsbD_append, if_pos (by decide)]
  simp

@[simp] theorem opField_formatL (op : BitVec 3) (n : Byte) : opField (formatL op n) = op := by
  rw [formatL_eq_formatN, opField_formatN]

@[simp] theorem lineField_formatL (op : BitVec 3) (n : Byte) : lineField (formatL op n) = n :=
  BitVec.extractLsb'_append_eq_right

@[simp] theorem zeroFieldL_formatL (op : BitVec 3) (n : Byte) : zeroFieldL (formatL op n) = 0 := by
  apply BitVec.eq_of_toNat_eq
  rw [zeroFieldL_toNat]
  simp only [formatL, toNat_append_eq_add]
  omega

/-! Every word is made of its fields. -/

theorem formatN_fields (w : OpWord) : formatN (opField w) (lowField w) = w :=
  BitVec.extractLsb'_append_extractLsb' (w := 3) (len := 33)

theorem lowField_eq_append_line (w : OpWord) : lowField w = zeroFieldL w ++ lineField w :=
  (BitVec.extractLsb'_append_extractLsb'_eq_extractLsb' (start₁ := 0) (len₁ := 8) (len₂ := 25) rfl).symm

theorem lowField_eq_append_timestamp (w : OpWord) :
    lowField w = BitVec.ofBool (levelField w) ++ timestampField w := by
  have level : BitVec.ofBool (levelField w) = w.extractLsb' 32 1 := by
    refine BitVec.eq_of_getLsbD_eq fun i one => ?_
    obtain rfl : i = 0 := by omega
    simp [levelField]
  rw [level]
  exact (BitVec.extractLsb'_append_extractLsb'_eq_extractLsb' (start₁ := 0) (len₁ := 32) (len₂ := 1) rfl).symm

theorem formatE_fields (w : OpWord) : formatE (opField w) (levelField w) (timestampField w) = w := by
  rw [formatE_eq_formatN, ← lowField_eq_append_timestamp, formatN_fields]

theorem formatL_fields {w : OpWord} (zero : zeroFieldL w = 0) : formatL (opField w) (lineField w) = w := by
  rw [formatL_eq_formatN, ← zero, ← lowField_eq_append_line, formatN_fields]

/-! The decoder and the encoder. -/

/-- A must-be-zero bit of the word's format is set (30_encoding R67). -/
def SetsZeroBit (w : OpWord) : Prop :=
  ((w.toNat / 2 ^ 33 = 3 ∨ w.toNat / 2 ^ 33 = 4) ∧ w.toNat / 2 ^ 8 % 2 ^ 25 ≠ 0) ∨
    ((w.toNat / 2 ^ 33 = 1 ∨ w.toNat / 2 ^ 33 = 2 ∨ w.toNat / 2 ^ 33 = 5) ∧ w.toNat % 2 ^ 33 ≠ 0)

theorem setsZeroBit_iff (w : OpWord) :
    SetsZeroBit w ↔
      ((opField w = 3 ∨ opField w = 4) ∧ zeroFieldL w ≠ 0) ∨
        ((opField w = 1 ∨ opField w = 2 ∨ opField w = 5) ∧ lowField w ≠ 0) := by
  simp [SetsZeroBit, ← BitVec.toNat_inj, opField_toNat, zeroFieldL_toNat, lowField_toNat]

/-- What the decoder answers for a word. -/
inductive DecodeCase (w : OpWord) : Except DecodeError Instr → Prop where
  | row (i : Instr) (word : encode i = w) : DecodeCase w (.ok i)
  | illegal (e : DecodeError) (bit : SetsZeroBit w) : DecodeCase w (.error e)

theorem decodeFormatN_cases {w : OpWord} {op : BitVec 3} {i : Instr} (isOp : opField w = op)
    (form : encode i = formatN op 0) (isN : op = 1 ∨ op = 2 ∨ op = 5) : DecodeCase w (decodeFormatN w i) := by
  subst isOp
  unfold decodeFormatN
  split
  case isTrue zero => exact .row i (by rw [form, ← zero, formatN_fields])
  case isFalse nonzero => exact .illegal _ ((setsZeroBit_iff w).mpr (.inr ⟨isN, nonzero⟩))

theorem decodeFormatL_cases {w : OpWord} {op : BitVec 3} {i : Instr} (isOp : opField w = op)
    (form : encode i = formatL op (lineField w)) (isL : op = 3 ∨ op = 4) : DecodeCase w (decodeFormatL w i) := by
  subst isOp
  unfold decodeFormatL
  split
  case isTrue zero => exact .row i (by rw [form, formatL_fields zero])
  case isFalse nonzero => exact .illegal _ ((setsZeroBit_iff w).mpr (.inl ⟨isL, nonzero⟩))

theorem decode_cases (w : OpWord) : DecodeCase w (decode w) := by
  have bound : (opField w).toNat < 8 := (opField w).isLt
  have isOp {op : BitVec 3} (h : (opField w).toNat = op.toNat) : opField w = op := BitVec.eq_of_toNat_eq h
  unfold decode
  split
  next h => exact .row _ (by rw [encode, ← isOp (op := 0) h, formatE_fields])
  next h => exact decodeFormatN_cases (isOp (op := 1) h) rfl (by decide)
  next h => exact decodeFormatN_cases (isOp (op := 2) h) rfl (by decide)
  next h => exact decodeFormatL_cases (isOp (op := 3) h) rfl (by decide)
  next h => exact decodeFormatL_cases (isOp (op := 4) h) rfl (by decide)
  next h => exact decodeFormatN_cases (isOp (op := 5) h) rfl (by decide)
  next h => exact .row _ (by rw [encode, ← isOp (op := 6) h, formatN_fields])
  next ne0 ne1 ne2 ne3 ne4 ne5 ne6 =>
    have h : (opField w).toNat = 7 := by
      simp only [imp_false] at ne0 ne1 ne2 ne3 ne4 ne5 ne6
      omega
    exact .row _ (by rw [encode, ← isOp (op := 7) h, formatN_fields])

theorem decode_encode (i : Instr) : decode (encode i) = .ok i := by
  cases i with
  | edge t level => exact decode_edgeWord ⟨t, level⟩
  | start n => simp [encode, decode, decodeFormatL]
  | stop n => simp [encode, decode, decodeFormatL]
  | tryPop => rfl
  | init => rfl
  | errIdx => rfl
  | reserved6 p => simp [encode, decode]
  | reserved7 p => simp [encode, decode]

theorem encode_of_decode {w : OpWord} {i : Instr} (decoded : decode w = .ok i) : encode i = w := by
  have c := decode_cases w
  rw [decoded] at c
  cases c with
  | row _ word => exact word

theorem decode_eq_ok_iff {w : OpWord} {i : Instr} : decode w = .ok i ↔ encode i = w :=
  ⟨encode_of_decode, fun word => word ▸ decode_encode i⟩

/-- The word of an operation keeps the must-be-zero bits of its format. -/
theorem not_setsZeroBit_encode (i : Instr) : ¬ SetsZeroBit (encode i) := by
  rw [setsZeroBit_iff]
  cases i <;> simp [encode]

theorem decode_eq_error_iff (w : OpWord) : (∃ e, decode w = .error e) ↔ SetsZeroBit w := by
  cases c : decode w with
  | ok i =>
    rw [← encode_of_decode c]
    simp [not_setsZeroBit_encode]
  | error e =>
    have := decode_cases w
    rw [c] at this
    cases this with
    | illegal _ bit => simpa using bit

/-- Settles O2, by the fields of each format. -/
theorem decodeOfEncodeIsTheOperation : Obligations.DecodeOfEncodeIsTheOperation := decode_encode

/-- Settles O3, by the cases of the decoder: every word is made of its fields. -/
theorem encodeOfDecodeIsTheWord : Obligations.EncodeOfDecodeIsTheWord := fun _ _ => encode_of_decode

/-- A mask that takes a word's high field selects the words with that field. -/
theorem and_highMask_eq_iff {n m : Nat} (w : BitVec (n + m)) (high : BitVec n) :
    w &&& (BitVec.allOnes n ++ (0 : BitVec m)) = high ++ (0 : BitVec m) ↔ ∃ low : BitVec m, high ++ low = w := by
  constructor
  · intro masked
    rw [← BitVec.extractLsb'_append_extractLsb' (x := w), Laws.RowSelected.append_and_high,
      BitVec.and_allOnes] at masked
    have field := congrArg (BitVec.extractLsb' m n) masked
    rw [BitVec.extractLsb'_append_eq_left, BitVec.extractLsb'_append_eq_left] at field
    exact ⟨w.extractLsb' 0 m, by rw [← field, BitVec.extractLsb'_append_extractLsb']⟩
  · rintro ⟨low, rfl⟩
    rw [Laws.RowSelected.append_and_high, BitVec.and_allOnes]

theorem and_opMask_eq_iff (w : OpWord) (op : BitVec 3) :
    w &&& 0xE00000000 = formatN op 0 ↔ ∃ low, formatN op low = w := and_highMask_eq_iff (n := 3) (m := 33) w op

theorem and_maskL_eq_iff (w : OpWord) (op : BitVec 3) :
    w &&& 0xFFFFFFF00 = formatL op 0 ↔ ∃ n, formatL op n = w :=
  and_highMask_eq_iff (n := 28) (m := 8) w (op ++ (0 : BitVec 25))

theorem and_fullMask_eq_iff (w v : OpWord) : w &&& 0xFFFFFFFFF = v ↔ v = w := by
  have all : w &&& 0xFFFFFFFFF = w := BitVec.and_allOnes
  rw [all, eq_comm]

/-- The words with operation number 0 are the EDGE words: every one is legal (30_encoding R67). -/
theorem exists_formatN_zero_iff (w : OpWord) :
    (∃ low, formatN 0 low = w) ↔ ∃ t level, decode w = .ok (.edge t level) := by
  constructor
  · rintro ⟨low, rfl⟩
    have word := formatE_fields (formatN 0 low)
    rw [opField_formatN] at word
    exact ⟨_, _, decode_eq_ok_iff.mpr word⟩
  · rintro ⟨t, level, decoded⟩
    exact ⟨_, (formatE_eq_formatN 0 level t).symm.trans (encode_of_decode decoded)⟩

/-- Settles O4: a mask takes the high field of its row, and what stands below it is the row's operand. -/
theorem maskAndMatchSelectTheRow : Obligations.MaskAndMatchSelectTheRow := by
  intro w
  have edge := (and_opMask_eq_iff w 0).trans (exists_formatN_zero_iff w)
  simp only [decode_eq_ok_iff] at edge ⊢
  exact ⟨edge, and_fullMask_eq_iff w _, and_fullMask_eq_iff w _, and_maskL_eq_iff w 3, and_maskL_eq_iff w 4,
    and_fullMask_eq_iff w _, and_opMask_eq_iff w 6, and_opMask_eq_iff w 7⟩

/-- Settles O5: the word is the encoding of the operation, and its fields are the operands. -/
theorem operandsAreFieldsOfTheWord : Obligations.OperandsAreFieldsOfTheWord := by
  intro w i decoded
  obtain rfl := encode_of_decode decoded
  cases i with
  | edge t level =>
    simp only [encode, ← timestampField_toNat, ← levelField_eq_true_iff, timestampField_formatE, levelField_formatE,
      true_and]
  | start n => simp only [encode, ← lineField_toNat, lineField_formatL]
  | stop n => simp only [encode, ← lineField_toNat, lineField_formatL]
  | reserved6 p => simp only [encode, ← lowField_toNat, lowField_formatN]
  | reserved7 p => simp only [encode, ← lowField_toNat, lowField_formatN]
  | tryPop => trivial
  | init => trivial
  | errIdx => trivial

/-- Settles O6: a word that encodes no operation sets a must-be-zero bit, and a word that encodes one sets none. -/
theorem illegalWordsAreThoseWithANonZeroReservedBit : Obligations.IllegalWordsAreThoseWithANonZeroReservedBit := by
  intro w
  refine ⟨decode_eq_error_iff w, fun op => ?_⟩
  have isOp : opField w = 0 := BitVec.eq_of_toNat_eq ((opField_toNat w).trans op)
  exact (exists_formatN_zero_iff w).mp ⟨lowField w, by rw [← isOp, formatN_fields]⟩

/-- A word with a reserved operation number decodes to its row. -/
theorem decode_reserved {w : OpWord} (op : w.toNat / 2 ^ 33 = 6 ∨ w.toNat / 2 ^ 33 = 7) :
    decode w = .ok (.reserved6 (lowField w)) ∨ decode w = .ok (.reserved7 (lowField w)) := by
  simp only [← opField_toNat] at op
  refine op.imp (fun h => ?_) (fun h => ?_)
  · have isOp : opField w = 6 := BitVec.eq_of_toNat_eq h
    rw [decode_eq_ok_iff, encode, ← isOp, formatN_fields]
  · have isOp : opField w = 7 := BitVec.eq_of_toNat_eq h
    rw [decode_eq_ok_iff, encode, ← isOp, formatN_fields]

namespace Machine

/-- An illegal or reserved word is rejected (30_encoding R67). -/
theorem runWord_rejected {w : OpWord}
    (bad : (w.toNat / 2 ^ 33 = 6 ∨ w.toNat / 2 ^ 33 = 7) ∨ SetsZeroBit w) (s : State) :
    runWord w s = foreground rejectWord s := by
  rcases bad with op | bit
  · rcases decode_reserved op with h | h
    · simp only [runWord, h, exec_reserved6_eq]
    · simp only [runWord, h, exec_reserved7_eq]
  · obtain ⟨e, h⟩ := (decode_eq_error_iff w).mpr bit
    simp only [runWord, h, illegalWord_eq]

/-- Settles O7: the foreground agent runs the word between calls, and the word is rejected. -/
theorem illegalOrReservedWordOnlyAnswersIllegal : Obligations.IllegalOrReservedWordOnlyAnswersIllegal := by
  intro s w rest idle moves word bad
  rw [step_foreground moves idle word, runWord_rejected bad]
  exact foreground_idle idle

/-- Settles O8: both rows are foreground operations that only answer. -/
theorem reservedRowsAnswerIllegal : Obligations.ReservedRowsAnswerIllegal := fun _ _ idle =>
  ⟨foreground_idle idle, foreground_idle idle⟩

/-- Settles O9: the fields stand side by side. -/
theorem responseWordHoldsTheRecord : Obligations.ResponseWordHoldsTheRecord := by
  intro m
  have packed : (packRecord m).toNat =
      m.gapTime.toNat * 2 ^ 32 + m.lenTime.toNat * 2 ^ 16 + m.cmd.toNat * 2 ^ 8 + m.adr.toNat := by
    simp only [packRecord, toNat_append_eq_add]
    ring
  refine ⟨?_, packed⟩
  rw [respMessage, toNat_append_eq_add, packed]
  rw [show (0b01 : BitVec 2).toNat = 1 from rfl]
  omega

end Machine

/-- Settles O1: each legal word is the encoding of its operation. -/
theorem specWordsDecodeToTheirOperations : Obligations.SpecWordsDecodeToTheirOperations :=
  ⟨decode_encode (.edge 100000 false), decode_encode (.edge 102400 true), decode_encode (.edge 4294967295 true),
    decode_encode .tryPop, decode_encode .init, decode_encode (.start 255), decode_encode (.stop 2),
    decode_encode .errIdx, decode_encode (.reserved6 0), decode_encode (.reserved7 0), rfl, rfl, rfl⟩

end Sys2Proof

/-! The pseudo-operation FRAME (spec/30_encoding.md R69, R71). -/

namespace Sys2Proof.Machine

theorem length_edgeTrain (t : Time) (level : Bool) (ds : List Time) :
    (edgeTrain t level ds).length = ds.length + 1 := by
  induction ds generalizing t level with
  | nil => rfl
  | cons d ds ih => simp [edgeTrain, ih]

theorem head?_edgeTrain (t : Time) (level : Bool) (ds : List Time) :
    (edgeTrain t level ds).head? = some ⟨t, level⟩ := by
  cases ds <;> rfl

/-- The last edge of a train comes after all the durations; its level has alternated once for each. -/
theorem getLast?_edgeTrain (t : Time) (level : Bool) (ds : List Time) :
    (edgeTrain t level ds).getLast? = some ⟨t + ds.sum, level ^^ decide (ds.length % 2 = 1)⟩ := by
  induction ds generalizing t level with
  | nil => simp [edgeTrain]
  | cons d ds ih =>
    have parity : decide ((d :: ds).length % 2 = 1) = !decide (ds.length % 2 = 1) := by
      rw [List.length_cons, ← decide_not, decide_eq_decide]
      omega
    rw [edgeTrain, List.getLast?_cons, ih, parity]
    simp [BitVec.add_assoc]

theorem length_frameDurations (a : Time) (bits : List (Time × Time)) :
    (frameDurations a bits).length = 1 + 2 * bits.length := by
  have halves : (bits.flatMap fun b => [b.1, b.2]).length = bits.length * 2 := by simp [List.length_flatMap]
  rw [frameDurations, List.length_cons, halves]
  omega

/-- The bits of a nominal frame take 1200 microseconds each, and 600 more for each 1 (30_encoding R71). -/
theorem sum_frameDurations_nominal (a : Time) (bits : List Bool) :
    (frameDurations a (bits.map nominalHalves)).sum =
      a + BitVec.ofNat 32 (1200 * bits.length + 600 * bits.count true) := by
  have halves (bit : Bool) : [(nominalHalves bit).1, (nominalHalves bit).2].sum =
      BitVec.ofNat 32 (1200 + if bit then 600 else 0) := by cases bit <;> rfl
  rw [frameDurations, List.sum_cons]
  congr 1
  induction bits with
  | nil => rfl
  | cons bit bits ih =>
    rw [List.map_cons, List.flatMap_cons, List.sum_append, ih, halves, ← BitVec.ofNat_add, List.length_cons]
    congr 1
    cases bit with
    | false => rw [List.count_cons_of_ne (by decide)]; simp only [Bool.false_eq_true, if_false]; omega
    | true => rw [List.count_cons_self]; simp only [if_true]; omega

theorem length_frameBits (cmd : BitVec 7) (adr : BitVec 5) : (frameBits cmd adr).length = 12 := by
  simp [frameBits]

/-- Settles O28: FRAME is an edge train of 25 durations. -/
theorem nominalFrameHasItsLength : Obligations.NominalFrameHasItsLength := by
  intro t0 cmd adr
  refine ⟨?_, head?_edgeTrain _ _ _, ?_⟩
  · rw [frame, frameEdges, length_edgeTrain, length_frameDurations, List.length_map, length_frameBits]
  · rw [frame, frameEdges, getLast?_edgeTrain, length_frameDurations, sum_frameDurations_nominal, List.length_map,
      length_frameBits, ← BitVec.ofNat_add]
    simp [Config.startTime, Config.irOn, ← Nat.add_assoc]

end Sys2Proof.Machine

/-! EDGE row by row (spec/40_edge_decoder.md R82 to R98): the next state of each row in the spec's numbers. EDGE is
a function, so a row whose conditions hold says what the next state is. -/

namespace Sys2Proof.Machine

section EdgeRows

variable {t : Time} {level : Bool} {s s' u : State} {i : Fin 25}

/-- Odd half-bits end at the active level `false`, even ones at `true` (40_edge_decoder R83). -/
theorem expectedLevel_half (i : Fin 25) : expectedLevel (.half i) = decide (i.val % 2 = 0) := by
  rcases Nat.mod_two_eq_zero_or_one i.val with even | odd
  · simp [expectedLevel_even i even, even]
  · simp [expectedLevel_odd i odd, odd]

theorem expected_of_half (idx : s.lastLevelIndex = .half i) (lv : level = decide (i.val % 2 = 0)) :
    level = expectedLevel s.lastLevelIndex := by
  rw [idx, expectedLevel_half, lv]

theorem unexpected_of_half (idx : s.lastLevelIndex = .half i) (lv : level ≠ decide (i.val % 2 = 0)) :
    level ≠ expectedLevel s.lastLevelIndex := by
  rwa [idx, expectedLevel_half]

/-- Half-bit `i`'s own level is not the one that ends it. -/
theorem decide_odd_ne_decide_even (n : Nat) : decide (n % 2 = 1) ≠ decide (n % 2 = 0) := by
  rcases Nat.mod_two_eq_zero_or_one n with even | odd
  · simp [even]
  · simp [odd]

theorem ne_gap_of_half (idx : s.lastLevelIndex = .half i) : s.lastLevelIndex ≠ .gap := by simp [idx]

/-- EDGE has one next state: that of any case that applies. -/
theorem edgeCase_unique (c : EdgeCase t level s s') (row : EdgeCase t level s u) : s' = u := by
  have next := exec_of_edgeCase c
  rw [exec_of_edgeCase row] at next
  cases next
  rfl

/-- A soft error's next state (40_edge_decoder R85). -/
theorem raiseSoft_eq (t : Time) (s : State) :
    raiseSoft t s = { s with
      requestTinyErrorLevel := true, lastFlipTime := t
      edgeOutcome := some .softError, handlerResponse := some 0 } := rfl

/-- A hard error's next state, at half-bit `i` (40_edge_decoder R86). -/
theorem raiseHard_of_half (t : Time) (idx : s.lastLevelIndex = .half i) :
    raiseHard t s = { s with
      lastErrorAtLevelIndex := BitVec.ofNat 8 i.val, lastLevelIndex := .gap, lastFlipTime := t
      edgeOutcome := some .hardError, handlerResponse := some 0 } := by
  have code : s.lastLevelIndex.toByte = BitVec.ofNat 8 i.val := by rw [idx, LevelIndex.toByte]
  rw [← code]
  rfl

/-- An edge to the expected level in half-bit `i`, whose window is `lo` to `hi`: the two errors, and `u` within the
window (40_edge_decoder R87, R89 to R91). -/
theorem exec_timedHalf {lo hi : Nat} (on : s.enabled = true) (idx : s.lastLevelIndex = .half i)
    (lv : level = decide (i.val % 2 = 0)) (loEq : (if i.val = 0 then 1800 else 300) = lo)
    (hiEq : (if i.val = 0 then 3000 else if i.val % 2 = 1 then 900 else 1500) = hi)
    (within : lo ≤ (t - s.lastHalfBitTime).toNat → (t - s.lastHalfBitTime).toNat ≤ hi → EdgeCase t level s u) :
    exec (.edge t level) s = .next (
      if (t - s.lastHalfBitTime).toNat < lo then { s with
        requestTinyErrorLevel := true, lastFlipTime := t
        edgeOutcome := some .softError, handlerResponse := some 0 }
      else if (t - s.lastHalfBitTime).toNat > hi then { s with
        requestTinyErrorLevel := false, lastErrorAtLevelIndex := BitVec.ofNat 8 i.val
        lastLevelIndex := .gap, lastFlipTime := t
        edgeOutcome := some .hardError, handlerResponse := some 0 }
      else u) := by
  have expected := expected_of_half idx lv
  by_cases under : (t - s.lastHalfBitTime).toNat < lo
  · rw [if_pos under]
    exact exec_of_edgeCase (.windowSoft i on idx expected (loEq ▸ under))
  rw [if_neg under]
  by_cases late : (t - s.lastHalfBitTime).toNat > hi
  · rw [if_pos late, exec_of_edgeCase (.windowHard i on idx expected (hiEq ▸ late)),
      raiseHard_of_half (s := s.clearTinyError) t idx]
    rfl
  rw [if_neg late]
  exact exec_of_edgeCase (within (Nat.le_of_not_lt under) (Nat.le_of_not_lt late))

end EdgeRows

/-- Settles O11: the idle filter. -/
theorem inactiveEdgeInGapIsIgnored : Obligations.InactiveEdgeInGapIsIgnored := by
  intro s t on idx
  exact exec_of_edgeCase (.idle on idx (by simp [idx]))

/-- Settles O17: the unexpected-level test, soft or hard. -/
theorem unexpectedLevel : Obligations.UnexpectedLevel := by
  intro s t i on idx
  have unexpected := unexpected_of_half idx (decide_odd_ne_decide_even i.val)
  rw [execEdge_unexpected on (ne_gap_of_half idx) unexpected, edgeUnexpected_eq, raiseSoft_eq,
    raiseHard_of_half t idx]

/-- Settles O13: half-bit 0 has its own window. -/
theorem startBitActiveHalf : Obligations.StartBitActiveHalf := by
  intro s t on idx
  exact exec_timedHalf on idx rfl rfl rfl (.startBit on idx (expected_of_half idx rfl))

/-- Settles O14: an odd half-bit, which is never the last. -/
theorem inactiveHalf : Obligations.InactiveHalf := by
  intro s t i odd on idx
  have pos : i.val ≠ 0 := by omega
  have lv : false = decide (i.val % 2 = 0) := by simp [odd]
  refine exec_timedHalf on idx lv (if_neg pos) (by rw [if_neg pos, if_pos odd]) fun lo hi => ?_
  have row := EdgeCase.inactive i on idx odd (expected_of_half idx lv) lo hi
  rwa [nextIndex_of_lt i (by omega)] at row

/-! The record in progress. -/

/-- Data bit `k` at its place (40_edge_decoder R92). -/
theorem placedBit_eq (b : Bool) (k : Nat) :
    ((BitVec.ofBool b).setWidth 8 <<< k : Byte) = BitVec.ofNat 8 (b.toNat * 2 ^ k) := by
  apply BitVec.eq_of_toNat_eq
  cases b <;> simp [Nat.shiftLeft_eq]

/-- A record with a data bit, in the spec's numbers (40_edge_decoder R92). -/
theorem withBit_eq (r : MessageRecord) (k : Nat) (b : Bool) :
    r.withBit k b =
      if k < 7 then { r with cmd := r.cmd ||| BitVec.ofNat 8 (b.toNat * 2 ^ k) }
      else { r with adr := r.adr ||| BitVec.ofNat 8 (b.toNat * 2 ^ (k - 7)) } := by
  simp only [MessageRecord.withBit, placedBit_eq]

/-- The bit an active half carries, as a number (40_edge_decoder R91). -/
theorem toNat_bitValue (d : Time) : (bitValue d).toNat = if d.toNat < 900 then 0 else 1 := by
  rw [bitValue_eq]
  by_cases short : d.toNat < 900
  · simp [short, Nat.not_le.mpr short]
  · simp [short, Nat.not_lt.mp short]

/-- Bit packing replaces the record in progress (40_edge_decoder R92). -/
theorem slot_packBit (k : Nat) (b : Bool) (s : State) :
    (packBit k b s).slot = s.slot.setRecord s.cursor ((s.slot.record s.cursor).withBit k b) := by
  apply store_ext
  intro j
  rw [record_packBit, record_setRecord]

/-- A message begin replaces the record in progress (40_edge_decoder R88). -/
theorem slot_edgeBegin (t : Time) (s : State) :
    (edgeBegin t s).slot =
      s.slot.setRecord s.cursor { gapTime := gapUnits t s.lastMsgTime, lenTime := 0, cmd := 0, adr := 0 } := by
  apply store_ext
  intro j
  rw [record_edgeBegin, record_setRecord]

/-- A commit completes the record in progress (40_edge_decoder R94). -/
theorem slot_edgeCommit (t : Time) (s : State) :
    (edgeCommit t s).slot =
      s.slot.setRecord s.cursor { s.slot.record s.cursor with lenTime := BitVec.ofNat 16 (t - s.recvMsgTime).toNat } := by
  apply store_ext
  intro j
  rw [record_edgeCommit, record_setRecord, low16_eq]

/-- Of two records put into a slot the second stays. -/
theorem setRecord_setRecord (m : Store) (i : SlotIndex) (q r : MessageRecord) :
    (m.setRecord i q).setRecord i r = m.setRecord i r := by
  apply store_ext
  intro j
  simp only [record_setRecord]
  split <;> rfl

/-- The final data bit and the commit together: the record in progress gets the bit and its duration
(40_edge_decoder R92, R94). -/
theorem edgeCommit_packBit (t : Time) (k : Nat) (b : Bool) (s : State) :
    edgeCommit t (packBit k b s) = { edgeCommit t s with
      slot := s.slot.setRecord s.cursor
        { (s.slot.record s.cursor).withBit k b with lenTime := BitVec.ofNat 16 (t - s.recvMsgTime).toNat } } := by
  have frame : edgeCommit t (packBit k b s) = { edgeCommit t s with slot := (edgeCommit t (packBit k b s)).slot } := by
    rw [packBit_frame]
    rfl
  rw [frame, slot_edgeCommit, packBit_cursor, packBit_recvMsgTime, slot_packBit, record_setRecord_self,
    setRecord_setRecord]

/-- Settles O12: the four writes of a message begin are one record. -/
theorem activeEdgeInGapBeginsAMessage : Obligations.ActiveEdgeInGapBeginsAMessage := by
  intro s t on idx
  rw [exec_of_edgeCase (.begins on idx (by rw [idx, expectedLevel_gap])), ← gapUnits_eq]
  exact congrArg (fun m => Host.Outcome.next { edgeBegin t s.clearTinyError with slot := m })
    (slot_edgeBegin t s.clearTinyError)

/-- Settles O15: half-bit `2k + 2` packs bit `k`. -/
theorem dataBitActiveHalf : Obligations.DataBitActiveHalf := by
  intro s t k bound on idx
  have even : (2 * k + 2) % 2 = 0 := by omega
  have lv : true = decide ((2 * k + 2) % 2 = 0) := by simp
  refine exec_timedHalf on idx lv (if_neg (by simp)) (by simp [even]) fun lo hi => ?_
  have row := EdgeCase.dataBit ⟨2 * k + 2, by omega⟩ on idx (by simp) even (by simp; omega)
    (expected_of_half idx lv) lo hi
  have place : bitIndex ⟨2 * k + 2, by omega⟩ = k := by simp only [bitIndex]; omega
  rw [nextIndex_of_lt _ (by simp; omega), place, packBit_frame, slot_packBit, withBit_eq, toNat_bitValue] at row
  exact row

/-- Settles O16: data bit 11 is bit 4 of `adr`. -/
theorem finalDataBitCommits : Obligations.FinalDataBitCommits := by
  intro s t on idx
  refine exec_timedHalf on idx rfl rfl rfl fun lo hi => ?_
  have row := EdgeCase.commit on idx (expected_of_half idx rfl) lo hi
  rw [edgeCommit_packBit, withBit_eq, if_neg (by decide), toNat_bitValue] at row
  exact row

section EdgeOutcomes

variable {t : Time} {level : Bool} {s s' u : State} {i : Fin 25}

/-- The level index and the outcome tag after a row that applies. -/
theorem edgeCase_after {x : LevelIndex} {tag : EdgeOutcome} (c : EdgeCase t level s s') (row : EdgeCase t level s u)
    (idx : u.lastLevelIndex = x) (out : u.edgeOutcome = some tag) :
    s'.lastLevelIndex = x ∧ s'.edgeOutcome = some tag := by
  rw [edgeCase_unique c row]
  exact ⟨idx, out⟩

theorem edgeCase_enabled (c : EdgeCase t level s s') : s'.enabled = s.enabled := by rw [edgeCase_frame c]

/-- An edge that is not ignored has passed the gate (42_lifecycle_diag R144). -/
theorem enabled_of_edgeCase (c : EdgeCase t level s s') (heard : s'.edgeOutcome ≠ some .ignored) :
    s.enabled = true := by
  cases c with
  | gated => exact absurd rfl heard
  | _ => assumption

/-- A soft error of either origin (40_edge_decoder R85). -/
theorem edgeCase_softError (c : EdgeCase t level s s') (soft : s'.edgeOutcome = some .softError) :
    s' = { s with
      requestTinyErrorLevel := true, lastFlipTime := t
      edgeOutcome := some .softError, handlerResponse := some 0 } := by
  cases c with
  | unexpectedSoft => exact raiseSoft_eq t s
  | windowSoft => exact raiseSoft_eq t s.clearTinyError
  | _ => simp at soft

/-- An edge to the expected level clears the flag unless it raises a soft error (40_edge_decoder R87). -/
theorem edgeCase_clears_flag (c : EdgeCase t level s s') (on : s.enabled = true)
    (lv : level = expectedLevel s.lastLevelIndex) (notSoft : s'.edgeOutcome ≠ some .softError) :
    s'.requestTinyErrorLevel = false := by
  cases c with
  | gated off => simp [on] at off
  | idle _ _ ne | unexpectedHard _ _ ne => exact absurd lv ne
  | unexpectedSoft | windowSoft => exact absurd rfl notSoft
  | dataBit | commit => simp
  | _ => rfl

/-- An edge to the expected level succeeds exactly within the window of its half-bit (40_edge_decoder R89 to R91). -/
theorem edgeCase_success_iff (c : EdgeCase t level s s') (on : s.enabled = true) (idx : s.lastLevelIndex = .half i)
    (lv : level = expectedLevel s.lastLevelIndex) :
    s'.edgeOutcome = some .continues ∨ s'.edgeOutcome = some .messageCommitted ↔
      InWindow i (t - s.lastHalfBitTime) := by
  have same {n : Fin 25} (idx' : s.lastLevelIndex = .half n) : n = i := by simpa [idx] using idx'.symm
  cases c with
  | gated off => simp [on] at off
  | idle _ gap | begins _ gap => simp [idx] at gap
  | unexpectedSoft _ _ ne | unexpectedHard _ _ ne => exact absurd lv ne
  | windowSoft n _ idx' _ under =>
    obtain rfl := same idx'
    exact iff_of_false (by simp) fun window => Nat.not_le.mpr under window.1
  | windowHard n _ idx' _ late =>
    obtain rfl := same idx'
    exact iff_of_false (by simp) fun window => Nat.not_le.mpr late window.2
  | startBit _ idx' _ lo hi =>
    obtain rfl := same idx'
    exact iff_of_true (.inl rfl) ⟨lo, hi⟩
  | inactive n _ idx' odd _ lo hi =>
    obtain rfl := same idx'
    exact iff_of_true (.inl rfl) (inWindow_inactive odd lo hi)
  | dataBit n _ idx' pos even _ _ lo hi =>
    obtain rfl := same idx'
    exact iff_of_true (.inl rfl) (inWindow_active pos even lo hi)
  | commit _ idx' _ lo hi =>
    obtain rfl := same idx'
    exact iff_of_true (.inr rfl) (inWindow_active (by decide) (by decide) lo hi)

end EdgeOutcomes

/-- Settles O18: each row of the table is a case of EDGE. -/
theorem levelIndexTransitionTable : Obligations.LevelIndexTransitionTable := by
  intro s s' t l on next d f after
  have c := edgeCase_of_next next
  cases idx : s.lastLevelIndex with
  | gap =>
    exact ⟨fun high => edgeCase_after c (.idle on idx (by simp [idx, high])) idx rfl,
      fun low => edgeCase_after c (.begins on idx (by simp [idx, low])) rfl rfl⟩
  | half i =>
    have active := ne_gap_of_half idx
    have expected := expected_of_half (level := l) idx
    have unexpected := unexpected_of_half (level := l) idx
    refine ⟨?_, ?_, ?_, ?_, ?_, ?_, ?_, ?_, ?_, ?_, ?_, ?_⟩
    · rintro ⟨ne, early, clear⟩
      exact edgeCase_after c (.unexpectedSoft on active (unexpected ne) early clear) idx rfl
    · rintro ⟨ne, late⟩
      exact edgeCase_after c (.unexpectedHard on active (unexpected ne) late) rfl rfl
    · rintro ⟨zero, e, under⟩
      obtain rfl : i = 0 := Fin.ext zero
      exact edgeCase_after c (.windowSoft 0 on idx (expected e) under) idx rfl
    · rintro ⟨zero, e, lo, hi⟩
      obtain rfl : i = 0 := Fin.ext zero
      exact edgeCase_after c (.startBit on idx (expected e) lo hi) rfl rfl
    · rintro ⟨zero, e, late⟩
      obtain rfl : i = 0 := Fin.ext zero
      exact edgeCase_after c (.windowHard 0 on idx (expected e) late) rfl rfl
    · rintro ⟨odd, e, under⟩
      have pos : i.val ≠ 0 := by omega
      exact edgeCase_after c (.windowSoft i on idx (expected e) (by rwa [if_neg pos])) idx rfl
    · rintro odd ⟨e, lo, hi⟩
      exact edgeCase_after c (.inactive i on idx odd (expected e) lo hi) (nextIndex_of_lt i (by omega)) rfl
    · rintro ⟨odd, e, late⟩
      have pos : i.val ≠ 0 := by omega
      exact edgeCase_after c (.windowHard i on idx (expected e) (by rwa [if_neg pos, if_pos odd])) rfl rfl
    · rintro ⟨even, two, e, under⟩
      have pos : i.val ≠ 0 := by omega
      exact edgeCase_after c (.windowSoft i on idx (expected e) (by rwa [if_neg pos])) idx rfl
    · rintro ⟨even, two, notLast⟩ ⟨e, lo, hi⟩
      exact edgeCase_after c (.dataBit i on idx (by omega) even (by omega) (expected e) lo hi)
        (nextIndex_of_lt i (by omega)) rfl
    · rintro ⟨last, e, lo, hi⟩
      obtain rfl : i = 24 := Fin.ext last
      exact edgeCase_after c (.commit on idx (expected e) lo hi) rfl rfl
    · rintro ⟨even, two, e, late⟩
      have pos : i.val ≠ 0 := by omega
      have active : ¬ i.val % 2 = 1 := by omega
      exact edgeCase_after c (.windowHard i on idx (expected e) (by rwa [if_neg pos, if_neg active])) rfl rfl

/-- Settles O19: a soft error is raised by the unexpected-level test or by a window. -/
theorem softErrorWritesFlagAndFlipTimeOnly : Obligations.SoftErrorWritesFlagAndFlipTimeOnly :=
  fun _ _ _ _ next soft => edgeCase_softError (edgeCase_of_next next) soft

/-- Settles O20: of the two origins of a hard error only the window stands behind the clearing of the flag. -/
theorem hardErrorWritesIndexGapAndFlipTimeOnly : Obligations.HardErrorWritesIndexGapAndFlipTimeOnly := by
  intro s s' t l next hard
  cases edgeCase_of_next next with
  | unexpectedHard on active ne late =>
    cases idx : s.lastLevelIndex with
    | gap => exact absurd idx active
    | half i =>
      rw [idx, expectedLevel_half] at ne
      exact ⟨i, rfl, by rw [raiseHard_of_half t idx, if_neg ne]⟩
  | windowHard i on idx lv late =>
    rw [idx, expectedLevel_half] at lv
    exact ⟨i, idx, by rw [raiseHard_of_half (s := s.clearTinyError) t idx, if_pos lv]; rfl⟩
  | _ => simp at hard

/-- Settles O22: in `GAP` an edge is dropped or ignored, or it begins a message. -/
theorem noErrorIsDeclaredInGap : Obligations.NoErrorIsDeclaredInGap := by
  intro s s' t l idx next
  cases edgeCase_of_next next with
  | gated | idle => exact ⟨by simp, by simp, rfl, fun _ => rfl⟩
  | begins _ _ lv =>
    refine ⟨by simp, by simp, rfl, fun high => ?_⟩
    rw [idx, expectedLevel_gap, high] at lv
    cases lv
  | unexpectedSoft _ active | unexpectedHard _ active => exact absurd idx active
  | windowSoft _ _ half | windowHard _ _ half | startBit _ half | inactive _ _ half | dataBit _ _ half
  | commit _ half => simp [idx] at half

/-- Settles O23: the soft error leaves the flag set and the boundary in place for the edge after it. -/
theorem whatFollowsASoftError : Obligations.WhatFollowsASoftError := by
  intro s s1 s2 t1 t2 l1 l2 i next1 soft idx next2
  have c1 := edgeCase_of_next next1
  have c2 := edgeCase_of_next next2
  have armed := edgeCase_softError c1 soft
  have on : s1.enabled = true := (edgeCase_enabled c1).trans (enabled_of_edgeCase c1 (by simp [soft]))
  have flag : s1.requestTinyErrorLevel = true := by rw [armed]
  have boundary : s1.lastHalfBitTime = s.lastHalfBitTime := by rw [armed]
  refine ⟨fun lv => ?_, fun lv => ?_⟩
  · have ne := unexpected_of_half idx (lv ▸ decide_odd_ne_decide_even i.val)
    rw [edgeCase_unique c2 (.unexpectedHard on (ne_gap_of_half idx) ne (.inr flag))]
    exact ⟨rfl, rfl, flag⟩
  · have expected := expected_of_half idx lv
    rw [← boundary]
    exact ⟨edgeCase_success_iff c2 on idx expected, edgeCase_clears_flag c2 on expected⟩

/-- Settles O24: outside the window the case is an error's, and an error leaves cursor and store. -/
theorem outOfWindowDurations : Obligations.OutOfWindowDurations := by
  intro s t i on idx
  obtain ⟨s', next, c⟩ := execEdge_cases t (decide (i.val % 2 = 0)) s
  have expected := expected_of_half idx rfl
  refine ⟨s', next, fun under => ?_, fun late => ?_⟩
  · rw [edgeCase_unique c (.windowSoft i on idx expected under)]
    exact ⟨rfl, rfl, rfl, rfl⟩
  · rw [edgeCase_unique c (.windowHard i on idx expected late)]
    exact ⟨rfl, rfl, rfl, rfl⟩

/-- Settles O25: the invariant bounds the time elapsed, and the last window adds to it. -/
theorem committedDurationIsInRange : Obligations.CommittedDurationIsInRange := by
  intro s s' t l inv next committed
  cases edgeCase_of_next next with
  | commit on idx lv lo hi =>
    have range : 9000 ≤ (t - s.recvMsgTime).toNat ∧ (t - s.recvMsgTime).toNat ≤ 31800 :=
      inv.elapsed_succ idx (inWindow_active (by decide) (by decide) lo hi)
    rw [edgeCommit_packBit, memRead, clearTinyError_cursor, record_setRecord_self, get_lenTime,
      clearTinyError_recvMsgTime, BitVec.toNat_ofNat]
    omega
  | _ => simp at committed

/-! Another epoch of the microsecond counter (spec/40_edge_decoder.md R97 (a)). -/

section Epoch

variable {t : Time} {level : Bool} {s s' : State}

theorem sub_shifted_lastHalfBitTime (t k : Time) (s : State) :
    t + k - (s.shiftTimes k).lastHalfBitTime = t - s.lastHalfBitTime := add_sub_add_right_eq_sub _ _ _

theorem sub_shifted_lastFlipTime (t k : Time) (s : State) :
    t + k - (s.shiftTimes k).lastFlipTime = t - s.lastFlipTime := add_sub_add_right_eq_sub _ _ _

theorem gapUnits_shift (t last k : Time) : gapUnits (t + k) (last + k) = gapUnits t last := by
  rw [gapUnits, sub32, add_sub_add_right_eq_sub, gapUnits, sub32]

theorem edgeBegin_shiftTimes (t k : Time) (s : State) :
    edgeBegin (t + k) (s.shiftTimes k) = (edgeBegin t s).shiftTimes k := by
  have slot : (edgeBegin (t + k) (s.shiftTimes k)).slot = (edgeBegin t s).slot := by
    simp only [slot_edgeBegin, State.shiftTimes, gapUnits_shift]
  exact congrArg (fun m => { (edgeBegin t s).shiftTimes k with slot := m }) slot

theorem packBit_shiftTimes (n : Nat) (b : Bool) (k : Time) (s : State) :
    packBit n b (s.shiftTimes k) = (packBit n b s).shiftTimes k := by
  simp only [packBit_eq]
  split <;> rfl

theorem edgeCommit_shiftTimes (t k : Time) (s : State) :
    edgeCommit (t + k) (s.shiftTimes k) = (edgeCommit t s).shiftTimes k := by
  have slot : (edgeCommit (t + k) (s.shiftTimes k)).slot = (edgeCommit t s).slot := by
    simp only [slot_edgeCommit, State.shiftTimes, add_sub_add_right_eq_sub]
  exact congrArg (fun m => { (edgeCommit t s).shiftTimes k with slot := m }) slot

/-- Every case of EDGE is the same case on another epoch. -/
theorem edgeCase_shiftTimes (c : EdgeCase t level s s') (k : Time) :
    EdgeCase (t + k) level (s.shiftTimes k) (s'.shiftTimes k) := by
  have half := sub_shifted_lastHalfBitTime t k s
  have flip := sub_shifted_lastFlipTime t k s
  cases c with
  | gated off => exact .gated off
  | idle on idx lv => exact .idle on idx lv
  | unexpectedSoft on idx lv early clear => exact .unexpectedSoft on idx lv (flip ▸ early) clear
  | unexpectedHard on idx lv late => exact .unexpectedHard on idx lv (flip ▸ late)
  | begins on idx lv =>
    rw [← edgeBegin_shiftTimes]
    exact .begins on idx lv
  | windowSoft i on idx lv d => exact .windowSoft i on idx lv (half ▸ d)
  | windowHard i on idx lv d => exact .windowHard i on idx lv (half ▸ d)
  | startBit on idx lv lo hi => exact .startBit on idx lv (half ▸ lo) (half ▸ hi)
  | inactive i on idx odd lv lo hi => exact .inactive i on idx odd lv (half ▸ lo) (half ▸ hi)
  | dataBit i on idx pos even last lv lo hi =>
    have c := EdgeCase.dataBit (s := s.shiftTimes k) i on idx pos even last lv (half ▸ lo) (half ▸ hi)
    have packed := packBit_shiftTimes (bitIndex i) (bitValue (t - s.lastHalfBitTime)) k s.clearTinyError
    rw [half] at c
    exact (congrArg (EdgeCase (t + k) level _ <| edgeAdvance (t + k) (nextIndex i) ·) packed).mp c
  | commit on idx lv lo hi =>
    have c := EdgeCase.commit (s := s.shiftTimes k) on idx lv (half ▸ lo) (half ▸ hi)
    have packed := packBit_shiftTimes 11 (bitValue (t - s.lastHalfBitTime)) k s.clearTinyError
    rw [half] at c
    rw [← edgeCommit_shiftTimes]
    exact (congrArg (EdgeCase (t + k) level _ <| edgeCommit (t + k) ·) packed).mp c

end Epoch

/-- Settles O27: the case of an EDGE is decided by differences of times. -/
theorem edgeIsTheSameOnEveryEpoch : Obligations.EdgeIsTheSameOnEveryEpoch :=
  fun _ _ _ k _ next => exec_of_edgeCase (edgeCase_shiftTimes (edgeCase_of_next next) k)

end Sys2Proof.Machine

/-! A frame on the line is decoded (spec/40_edge_decoder.md R103): what the block holds after each half-bit of a frame,
by induction on the data bits. -/

namespace Sys2Proof.Machine

/-- The edges of a list lead from `s` to `s'` and commit `n` messages. -/
def RunsTo (es : List EdgeEvent) (s : State) (n : Nat) (s' : State) : Prop :=
  commitCount es s = n ∧ runEdges es s = .next s'

section RunsTo

variable {e : EdgeEvent} {es : List EdgeEvent} {s u s' : State} {n : Nat}

theorem RunsTo.cons (c : EdgeCase e.timestamp e.level s u) (uncommitted : u.edgeOutcome ≠ some .messageCommitted)
    (rest : RunsTo es u n s') : RunsTo (e :: es) s n s' := by
  obtain ⟨count, run⟩ := rest
  have next := exec_of_edgeCase c
  exact ⟨by simp only [commitCount, next, if_neg uncommitted, count, Nat.zero_add],
    by simp only [runEdges, next, run]⟩

theorem RunsTo.commit (c : EdgeCase e.timestamp e.level s u) (committed : u.edgeOutcome = some .messageCommitted) :
    RunsTo [e] s 1 u := by
  have next := exec_of_edgeCase c
  exact ⟨by simp only [commitCount, next, if_pos committed], by simp only [runEdges, next]⟩

end RunsTo

/-- A message in reception: the store and the slot it found, its first edge, and the values on the line. -/
structure Reception where
  store : Store
  cursor : SlotIndex
  begun : Time
  gapTime : Half
  cmd : BitVec 7
  adr : BitVec 5

/-- Data bit `k` on the line: `cmd` first, each least significant bit first (30_encoding R69). -/
def Reception.bit (r : Reception) (k : Nat) : Bool := if k < 7 then r.cmd.getLsbD k else r.adr.getLsbD (k - 7)

/-- The low `k` bits of a value, as a byte. -/
def lowBits {w : Nat} (k : Nat) (x : BitVec w) : Byte := (x.setWidth k).setWidth 8

/-- The record in progress after the first `k` data bits. -/
def Reception.record (r : Reception) (k : Nat) : MessageRecord where
  gapTime := r.gapTime
  lenTime := 0
  cmd := lowBits k r.cmd
  adr := lowBits (k - 7) r.adr

/-- The block in half-bit `i`, which began at `t`, with the first `k` data bits packed. -/
structure Reception.InProgress (r : Reception) (k : Nat) (i : Fin 25) (t : Time) (s : State) : Prop where
  on : s.enabled = true
  idx : s.lastLevelIndex = .half i
  boundary : s.lastHalfBitTime = t
  begun : s.recvMsgTime = r.begun
  cursor : s.cursor = r.cursor
  slot : s.slot = r.store.setRecord r.cursor (r.record k)

/-- The block after the message's last edge at `t`. -/
structure Reception.Committed (r : Reception) (t : Time) (s : State) : Prop where
  idx : s.lastLevelIndex = .gap
  tag : s.edgeOutcome = some .messageCommitted
  cursor : s.cursor = r.cursor + 1
  lastMsgTime : s.lastMsgTime = t
  slot : s.slot = r.store.setRecord r.cursor { r.record 12 with lenTime := BitVec.ofNat 16 (t - r.begun).toNat }

/-! The bits of the frame. -/

theorem getElem_frameBits (r : Reception) {k : Nat} (bound : k < (frameBits r.cmd r.adr).length) :
    (frameBits r.cmd r.adr)[k] = r.bit k := by
  simp only [frameBits, List.getElem_append, List.length_map, List.length_range, List.getElem_map, List.getElem_range,
    dite_eq_ite, Reception.bit]

theorem drop_frameBits (r : Reception) {k : Nat} (bound : k < 12) :
    (frameBits r.cmd r.adr).drop k = r.bit k :: (frameBits r.cmd r.adr).drop (k + 1) := by
  have inFrame : k < (frameBits r.cmd r.adr).length := by rwa [length_frameBits]
  rw [List.drop_eq_getElem_cons inFrame, getElem_frameBits]

theorem lowBits_zero {w : Nat} (x : BitVec w) : lowBits 0 x = 0 := by
  apply BitVec.eq_of_toNat_eq
  simp [lowBits, Nat.mod_one]

/-- All the bits of a value. -/
theorem lowBits_of_le {w k : Nat} (x : BitVec w) (all : w ≤ k) : lowBits k x = x.setWidth 8 :=
  BitVec.setWidth_setWidth (by omega)

/-- The low `k` bits of a value with its bit `k` are its low `k + 1` bits. -/
theorem lowBits_or_placedBit {w : Nat} (k : Nat) (x : BitVec w) :
    lowBits k x ||| ((BitVec.ofBool (x.getLsbD k)).setWidth 8 <<< k) = lowBits (k + 1) x := by
  apply BitVec.eq_of_getLsbD_eq
  intro j bound
  simp only [lowBits, BitVec.getLsbD_or, BitVec.getLsbD_setWidth, BitVec.getLsbD_shiftLeft, BitVec.getLsbD_ofBool,
    bound, decide_true, Bool.true_and]
  rcases Nat.lt_trichotomy j k with below | rfl | above
  · simp [below, Nat.lt_succ_of_lt below]
  · simp
  · have notBelow : ¬ j < k + 1 := by omega
    have notPlace : ¬ j - k = 0 := by omega
    simp [notBelow, notPlace, Nat.not_lt_of_gt above]

/-- Each data bit completes the record by one bit (40_edge_decoder R92). -/
theorem Reception.withBit_record (r : Reception) (k : Nat) : (r.record k).withBit k (r.bit k) = r.record (k + 1) := by
  unfold MessageRecord.withBit Reception.bit Reception.record
  by_cases inCmd : k < 7
  · have noAdr : k + 1 - 7 = k - 7 := by omega
    simp only [if_pos inCmd, lowBits_or_placedBit, noAdr]
  · have next : k + 1 - 7 = k - 7 + 1 := by omega
    simp only [if_neg inCmd, lowBits_or_placedBit, next, lowBits_of_le r.cmd (Nat.le_of_not_lt inCmd),
      lowBits_of_le r.cmd (Nat.le_succ_of_le (Nat.le_of_not_lt inCmd))]

/-! The half-bits of the frame. -/

section InProgress

variable {r : Reception} {k : Nat} {i : Fin 25} {t d : Time} {s : State}

theorem Reception.InProgress.elapsed (h : r.InProgress k i t s) (d : Time) : t + d - s.lastHalfBitTime = d := by
  rw [h.boundary]
  exact add_sub_cancel_left t d

/-- A message begins at its first edge (40_edge_decoder R88). -/
theorem inProgress_edgeBegin (t : Time) (cmd : BitVec 7) (adr : BitVec 5) (on : s.enabled = true) :
    Reception.InProgress ⟨s.slot, s.cursor, t, gapUnits t s.lastMsgTime, cmd, adr⟩ 0 0 t (edgeBegin t s) where
  on := on
  idx := rfl
  boundary := rfl
  begun := rfl
  cursor := rfl
  slot := by
    rw [slot_edgeBegin]
    simp [Reception.record, lowBits_zero]

/-- A half-bit ends at `u` and half-bit `j` begins. -/
theorem Reception.InProgress.advance (h : r.InProgress k i t s) (u : Time) (j : Fin 25) :
    r.InProgress k j u (edgeAdvance u (.half j) s) :=
  ⟨h.on, rfl, rfl, h.begun, h.cursor, h.slot⟩

theorem Reception.InProgress.clearTinyError (h : r.InProgress k i t s) : r.InProgress k i t s.clearTinyError :=
  ⟨h.on, h.idx, h.boundary, h.begun, h.cursor, h.slot⟩

/-- A data bit is packed into the record (40_edge_decoder R92). -/
theorem Reception.InProgress.packBit (h : r.InProgress k i t s) :
    r.InProgress (k + 1) i t (packBit k (r.bit k) s) := by
  have slot : (Machine.packBit k (r.bit k) s).slot = r.store.setRecord r.cursor (r.record (k + 1)) := by
    rw [slot_packBit, h.slot, h.cursor, record_setRecord_self, setRecord_setRecord, r.withBit_record]
  rw [packBit_frame]
  exact ⟨h.on, h.idx, h.boundary, h.begun, h.cursor, slot⟩

/-- The start bit's active half (40_edge_decoder R89). -/
theorem Reception.InProgress.startBit (h : r.InProgress 0 0 t s) (lo : 1800 ≤ d.toNat) (hi : d.toNat ≤ 3000) :
    ∃ u, EdgeCase (t + d) true s u ∧ u.edgeOutcome = some .continues ∧ r.InProgress 0 1 (t + d) u := by
  have row := EdgeCase.startBit (t := t + d) h.on h.idx (expected_of_half h.idx rfl)
  rw [h.elapsed] at row
  exact ⟨_, row lo hi, rfl, h.clearTinyError.advance (t + d) 1⟩

/-- The inactive half before data bit `k` (40_edge_decoder R90). -/
theorem Reception.InProgress.inactiveHalf {bound : 2 * k + 1 < 25} (h : r.InProgress k ⟨2 * k + 1, bound⟩ t s)
    (lo : 300 ≤ d.toNat) (hi : d.toNat ≤ 900) :
    ∃ u, EdgeCase (t + d) false s u ∧ u.edgeOutcome = some .continues ∧
      r.InProgress k ⟨2 * k + 2, by omega⟩ (t + d) u := by
  have odd : (2 * k + 1) % 2 = 1 := by omega
  have row := EdgeCase.inactive (t := t + d) (level := false) _ h.on h.idx odd (expected_of_half h.idx (by simp [odd]))
  rw [h.elapsed, nextIndex_of_lt _ (by simp; omega)] at row
  exact ⟨_, row lo hi, rfl, h.clearTinyError.advance (t + d) _⟩

/-- The active half of one of the first eleven data bits (40_edge_decoder R91 to R93). -/
theorem Reception.InProgress.dataBit {bound : 2 * k + 2 < 25} (h : r.InProgress k ⟨2 * k + 2, bound⟩ t s)
    (more : k < 11) (lo : 300 ≤ d.toNat) (hi : d.toNat ≤ 1500) (carried : bitValue d = r.bit k) :
    ∃ u, EdgeCase (t + d) true s u ∧ u.edgeOutcome = some .continues ∧
      r.InProgress (k + 1) ⟨2 * (k + 1) + 1, by omega⟩ (t + d) u := by
  have even : (2 * k + 2) % 2 = 0 := by omega
  have place : bitIndex ⟨2 * k + 2, bound⟩ = k := by simp only [bitIndex]; omega
  have row := EdgeCase.dataBit (t := t + d) (level := true) _ h.on h.idx (by simp) even (by simp; omega)
    (expected_of_half h.idx (by simp))
  rw [h.elapsed, nextIndex_of_lt _ (by simp; omega), place, carried] at row
  exact ⟨_, row lo hi, rfl, h.clearTinyError.packBit.advance (t + d) _⟩

/-- The active half of the last data bit (40_edge_decoder R94). -/
theorem Reception.InProgress.commit (h : r.InProgress 11 24 t s) (lo : 300 ≤ d.toNat) (hi : d.toNat ≤ 1500)
    (carried : bitValue d = r.bit 11) : ∃ u, EdgeCase (t + d) true s u ∧ r.Committed (t + d) u := by
  have row := EdgeCase.commit (t := t + d) h.on h.idx (expected_of_half h.idx rfl)
  rw [h.elapsed, carried] at row
  have packed := h.clearTinyError.packBit
  refine ⟨_, row lo hi, rfl, rfl, ?_, rfl, ?_⟩
  · rw [edgeCommit_cursor, packed.cursor]
  · rw [slot_edgeCommit, packed.slot, packed.cursor, packed.begun, record_setRecord_self, setRecord_setRecord]

end InProgress

/-! The frame. -/

/-- A train is its first edge and the edges after it. -/
theorem edgeTrain_eq_cons (t : Time) (level : Bool) (ds : List Time) :
    edgeTrain t level ds = ⟨t, level⟩ :: (edgeTrain t level ds).tail := by
  cases ds <;> rfl

/-- Half-bits of `x` and of `n` microseconds, one after the other. -/
theorem add_add_ofNat (t x : Time) (n : Nat) : t + x + BitVec.ofNat 32 n = t + BitVec.ofNat 32 (x.toNat + n) := by
  rw [BitVec.ofNat_add, BitVec.ofNat_toNat, BitVec.setWidth_eq, BitVec.add_assoc]

/-- The data bits from bit `k` on lead to the commit, by induction on them. -/
theorem Reception.InProgress.runsTo_committed {r : Reception} {k : Nat} {t : Time} {s : State} {bound : 2 * k + 1 < 25}
    (h : r.InProgress k ⟨2 * k + 1, bound⟩ t s) (bits : List (Time × Time)) (timed : ∀ b ∈ bits, BitTimed b)
    (carried : bits.map lineBit = (frameBits r.cmd r.adr).drop k) :
    ∃ s', RunsTo (edgeTrain t true (bits.flatMap fun b => [b.1, b.2])).tail s 1 s' ∧
      r.Committed (t + BitVec.ofNat 32 (bits.map fun b => b.1.toNat + b.2.toNat).sum) s' := by
  induction bits generalizing k t s with
  | nil =>
    rw [drop_frameBits r (by omega)] at carried
    cases carried
  | cons b bits ih =>
    rw [drop_frameBits r (by omega), List.map_cons, List.cons.injEq] at carried
    obtain ⟨bit, carried⟩ := carried
    obtain ⟨⟨inactiveLo, inactiveHi, activeLo, activeHi⟩, timed⟩ := List.forall_mem_cons.mp timed
    have value : bitValue b.2 = r.bit k := by rw [bitValue_eq, ← bit, lineBit]
    have edges : (edgeTrain t true ((b :: bits).flatMap fun b => [b.1, b.2])).tail =
        ⟨t + b.1, false⟩ :: edgeTrain (t + b.1 + b.2) true (bits.flatMap fun b => [b.1, b.2]) := rfl
    obtain ⟨u, inactive, tag, h⟩ := h.inactiveHalf inactiveLo inactiveHi
    rw [edges, List.map_cons, List.sum_cons, Nat.add_assoc, ← add_add_ofNat, ← add_add_ofNat, edgeTrain_eq_cons]
    by_cases more : k < 11
    · obtain ⟨v, active, tag', h⟩ := h.dataBit more activeLo activeHi value
      obtain ⟨s', rest, committed⟩ := ih h timed carried
      exact ⟨s', .cons inactive (by simp [tag]) (.cons active (by simp [tag']) rest), committed⟩
    · obtain rfl : k = 11 := by omega
      have last : bits = [] := by
        rw [List.drop_of_length_le (by rw [length_frameBits])] at carried
        exact List.map_eq_nil_iff.mp carried
      subst last
      obtain ⟨s', active, committed⟩ := h.commit activeLo activeHi value
      exact ⟨s', .cons inactive (by simp [tag]) (.commit active committed.tag), by simpa using committed⟩

/-- Settles O26: the first two edges begin the message and end its start bit, and the data bits follow. -/
theorem wellFormedFrameIsDecoded : Obligations.WellFormedFrameIsDecoded := by
  intro s t0 start bits cmd adr on idx startLo startHi timed carried
  have begins := EdgeCase.begins (t := t0) (level := false) on idx (by rw [idx, expectedLevel_gap])
  have h := inProgress_edgeBegin (s := s.clearTinyError) t0 cmd adr on
  obtain ⟨u, startBit, tag, h⟩ := h.startBit startLo startHi
  obtain ⟨s', rest, committed⟩ := h.runsTo_committed (k := 0) bits timed carried
  have edges : frameEdges t0 start bits =
      ⟨t0, false⟩ :: edgeTrain (t0 + start) true (bits.flatMap fun b => [b.1, b.2]) := rfl
  rw [edges, edgeTrain_eq_cons]
  obtain ⟨count, run⟩ := RunsTo.cons (e := ⟨t0, false⟩) begins (by simp)
    (.cons (e := ⟨t0 + start, true⟩) startBit (by simp [tag]) rest)
  rw [add_add_ofNat] at committed
  refine ⟨count, s', run, committed.idx, committed.tag, committed.cursor, committed.lastMsgTime, ?_⟩
  rw [committed.slot, add_sub_cancel_left, ← low16_eq, low16, BitVec.setWidth_ofNat_of_le (by decide), ← gapUnits_eq]
  simp only [Reception.record, lowBits_of_le cmd (show 7 ≤ 12 by decide), lowBits_of_le adr (show 5 ≤ 12 - 7 by decide)]
  rfl

end Sys2Proof.Machine

/-! TRYPOP as its run of micro-steps (spec/41_message_reader.md R120 to R127): what each micro-step is, how a call in
progress ends, and what the steps of the block make of it. -/

namespace Sys2Proof.Machine

section MicroSteps

variable {s s' : State} {c : SlotIndex} {len gap : Half} {cmd adr : Byte} {m : MessageRecord}

/-! Which micro-step is the next one. -/

theorem microStep_of_snapshot (call : s.call = .snapshot c) : microStep s = checkLen c s := by
  simp only [microStep, call]

theorem microStep_of_lenRead (call : s.call = .lenRead c len) : microStep s = checkGap c len s := by
  simp only [microStep, call]

theorem microStep_of_gapRead (call : s.call = .gapRead c len gap) : microStep s = checkMatch c len gap s := by
  simp only [microStep, call]

theorem microStep_of_matched (call : s.call = .matched c len gap cmd adr) :
    microStep s = makeCopy c len gap cmd adr s := by
  simp only [microStep, call]

theorem microStep_of_copied (call : s.call = .copied c m) : microStep s = deliver c m s := by
  simp only [microStep, call]

/-- A case that applies says what the micro-step does: the converse of `microStep_cases`. -/
theorem microStep_of_case (h : MicroCase s s') : microStep s = s' := by
  cases h with
  | none call => exact microStep_idle call
  | noData c call len => rw [microStep_of_snapshot call, checkLen_eq, if_pos len]
  | len c call len => rw [microStep_of_snapshot call, checkLen_eq, if_neg len]
  | firstPress c l call gap => rw [microStep_of_lenRead call, checkGap_eq, if_pos gap]
  | gap c l call gap => rw [microStep_of_lenRead call, checkGap_eq, if_neg (Nat.not_lt.mpr gap)]
  | mismatch c l g call ne => rw [microStep_of_gapRead call, checkMatch_eq, if_pos ne]
  | agree c l g call adr cmd =>
    have same := not_or.mpr ⟨not_not_intro adr, not_not_intro cmd⟩
    rw [microStep_of_gapRead call, checkMatch_eq, if_neg same]
  | copy c l g x y call => exact microStep_of_matched call
  | deliver c m call => exact microStep_of_copied call

/-- A micro-step writes the response when it ends the call, and only then (41_message_reader R120). -/
theorem microCase_response (h : MicroCase s s') (goesOn : s'.call ≠ .idle) : s'.response = s.response := by
  cases h with
  | noData | firstPress | mismatch | deliver => exact absurd rfl goesOn
  | _ => rfl

theorem microCase_ended (h : MicroCase s s') (inCall : s.call ≠ .idle) (ended : s'.call = .idle) :
    s'.response ≠ none := by
  cases h with
  | none call => exact absurd call inCall
  | noData | firstPress | mismatch | deliver => exact Option.some_ne_none _
  | len | gap | agree | copy => cases ended

/-- The last micro-step of a delivery alone writes the store: `lenTime` of the current record
(41_message_reader R126). -/
theorem microCase_slot (h : MicroCase s s') :
    s'.slot = s.slot ∨ ∃ c m, s.call = .copied c m ∧ s'.slot = memWrite s.slot (c + 3) .lenTime 0 := by
  cases h with
  | deliver c m call => exact .inr ⟨c, m, call, rfl⟩
  | _ => exact .inl rfl

theorem cursorSnapshot_eq_none_iff (call : TryPopCall) : call.cursorSnapshot = none ↔ call = .idle := by
  cases call <;> simp [TryPopCall.cursorSnapshot]

/-- A call that goes on keeps its snapshot (41_message_reader R121). -/
theorem microCase_keepsSnapshot (h : MicroCase s s') (snapshot : s.call.cursorSnapshot = some c) :
    s'.call = .idle ∨ s'.call.cursorSnapshot = some c := by
  cases after : s'.call.cursorSnapshot with
  | none => exact .inl ((cursorSnapshot_eq_none_iff _).mp after)
  | some c' => exact .inr (by rw [← snapshot, microCase_cursorSnapshot h after])

end MicroSteps

/-- Settles O31: each micro-step with the spec's numbers. -/
theorem microStepsOfTryPop : Obligations.MicroStepsOfTryPop := by
  intro s c len gap cmd adr m cur prev empty
  exact ⟨rfl, fun call => (microStep_of_snapshot call).trans (checkLen_eq c s),
    fun call => (microStep_of_lenRead call).trans (checkGap_eq c len s),
    fun call => (microStep_of_gapRead call).trans (checkMatch_eq c len gap s), microStep_of_matched,
    microStep_of_copied⟩

/-- What a write to `lenTime` leaves in the other fields of the record (20_memory R41). -/
theorem memRead_memWrite_lenTime (m : Store) (i : SlotIndex) (v : Half) :
    memRead (memWrite m i .lenTime v) i .gapTime = memRead m i .gapTime ∧
    memRead (memWrite m i .lenTime v) i .cmd = memRead m i .cmd ∧
    memRead (memWrite m i .lenTime v) i .adr = memRead m i .adr := by
  simp [memRead, record_memWrite]

/-- Settles O36: a step of the call is a micro-step, whose frame is `microCase_frame`, and which writes the store in its
last case only. -/
theorem tryPopFrame : Obligations.TryPopFrame := by
  refine ⟨fun s s' next => (foreground_next ((exec_tryPop_eq s).symm.trans next)).2, ?_⟩
  intro s s' c snapshot moves next
  have inCall : s.call ≠ .idle := by
    rw [ne_eq, ← cursorSnapshot_eq_none_iff, snapshot]
    exact Option.some_ne_none c
  rw [stepOfACallIsOneMicroStep s inCall moves] at next
  cases next
  have m := microStep_cases s
  have frame := congrArg (fun u : State => { u with handlerPort := s.handlerPort.tail }) (microCase_frame m)
  have keeps := microCase_keepsSnapshot m snapshot
  have response := microCase_response m
  refine ⟨frame, keeps, response, ?_⟩
  rcases microCase_slot m with same | ⟨c', r, call, written⟩
  · simp only [same, implies_true, and_self]
  · obtain rfl : c' = c := by simpa [call, TryPopCall.cursorSnapshot] using snapshot
    simp only [written]
    exact ⟨fun notLast => absurd call (notLast r), fun j w f other => memRead_memWrite_ne _ _ _ _ other.symm,
      memRead_memWrite_lenTime _ _ _⟩

/-! The run of a call. -/

/-- The call in progress in `s` ends after `n` micro-steps, in `s'`. -/
structure CallEnds (n : Nat) (s s' : State) : Prop where
  inCall : ∀ j, j < n → (microStep^[j] s).call ≠ .idle
  eq : microStep^[n] s = s'
  idle : s'.call = .idle

section CallEnds

variable {n k : Nat} {s u s' : State}

theorem CallEnds.zero (idle : s.call = .idle) : CallEnds 0 s s := ⟨nofun, rfl, idle⟩

theorem CallEnds.succ (inCall : s.call ≠ .idle) (m : MicroCase s u) (rest : CallEnds n u s') :
    CallEnds (n + 1) s s' := by
  obtain rfl := microStep_of_case m
  refine ⟨fun j bound => ?_, rest.eq, rest.idle⟩
  cases j with
  | zero => exact inCall
  | succ j => exact rest.inCall j (Nat.lt_of_succ_lt_succ bound)

theorem remaining_eq_zero_iff (call : TryPopCall) : call.remaining = 0 ↔ call = .idle := by
  cases call <;> simp [TryPopCall.remaining]

theorem remaining_le_five (call : TryPopCall) : call.remaining ≤ 5 := by
  cases call <;> simp [TryPopCall.remaining]

/-- Every call ends, since every micro-step brings it nearer to its end. -/
theorem exists_callEnds (bound : s.call.remaining ≤ k) : ∃ n s', n ≤ k ∧ CallEnds n s s' := by
  induction k generalizing s with
  | zero => exact ⟨0, s, Nat.le_refl 0, .zero ((remaining_eq_zero_iff _).mp (Nat.le_zero.mp bound))⟩
  | succ k ih =>
    by_cases idle : s.call = .idle
    · exact ⟨0, s, Nat.zero_le _, .zero idle⟩
    · have m := microStep_cases s
      have nearer := microCase_remaining m
      obtain ⟨n, s', le, run⟩ := ih (s := microStep s) (by omega)
      exact ⟨n + 1, s', Nat.succ_le_succ le, .succ idle m run⟩

/-- A call that was in progress ends with a response (41_message_reader R120). -/
theorem CallEnds.response (run : CallEnds n s s') (inCall : s.call ≠ .idle) : s'.response ≠ none := by
  cases n with
  | zero =>
    obtain rfl : s = s' := run.eq
    exact absurd run.idle inCall
  | succ n =>
    have last := microStep_cases (microStep^[n] s)
    rw [← Function.iterate_succ_apply' microStep, run.eq] at last
    exact microCase_ended last (run.inCall n n.lt_succ_self) run.idle

end CallEnds

/-! The steps of a call. -/

section Steps

variable {n k : Nat} {s s' : State}

theorem iterate_microStep_withHandlerPort (n : Nat) (s : State) (port : List (Option EdgeEvent)) :
    microStep^[n] { s with handlerPort := port } = { microStep^[n] s with handlerPort := port } := by
  induction n generalizing s with
  | zero => rfl
  | succ n ih => rw [Function.iterate_succ_apply, microStep_withHandlerPort, ih, Function.iterate_succ_apply]

/-- No edge comes before the next micro-step, nor before the `n` after it. -/
theorem QuietFor.next (quiet : QuietFor (n + 1) s) : ForegroundMoves s ∧ ∀ a ∈ s.handlerPort.tail.take n, a = none := by
  unfold QuietFor at quiet
  cases port : s.handlerPort with
  | nil => exact ⟨by simp [ForegroundMoves, port], by simp⟩
  | cons a rest =>
    rw [port, List.take_succ_cons, List.forall_mem_cons] at quiet
    exact ⟨by simp [ForegroundMoves, port, quiet.1], quiet.2⟩

theorem QuietFor.mono (quiet : QuietFor n s) (le : k ≤ n) : QuietFor k s :=
  fun a mem => quiet a ((List.take_sublist_take_left le).mem mem)

/-- What runs the steps of a call one after another runs its micro-steps, as long as no edge pre-empts them: each step
takes the next quiet slot. -/
theorem run_call {run : Nat → State → Host.Outcome State Fault Refusal}
    (unroll : ∀ {k s u}, s.call ≠ .idle → step s = .next u → run (k + 1) s = run k u)
    (inCall : ∀ j, j < n → (microStep^[j] s).call ≠ .idle) (quiet : QuietFor n s) (k : Nat) :
    run (n + k) s = run k { microStep^[n] s with handlerPort := s.handlerPort.drop n } := by
  induction n generalizing s with
  | zero => rw [Nat.zero_add]; rfl
  | succ n ih =>
    obtain ⟨moves, later⟩ := quiet.next
    have busy : s.call ≠ .idle := inCall 0 n.succ_pos
    have first := stepOfACallIsOneMicroStep s busy moves
    have inCall' (j) (bound : j < n) :
        (microStep^[j] { microStep s with handlerPort := s.handlerPort.tail }).call ≠ .idle := by
      rw [iterate_microStep_withHandlerPort]
      exact inCall (j + 1) (Nat.succ_lt_succ bound)
    rw [Nat.add_right_comm, unroll busy first, ih inCall' later, iterate_microStep_withHandlerPort, List.drop_tail]
    rfl

theorem runSteps_succ {u : State} (next : step s = .next u) : runSteps (k + 1) s = runSteps k u := by
  rw [runSteps, next]

theorem runSteps_one (s : State) : runSteps 1 s = step s := by
  rw [runSteps]
  cases step s <;> rfl

theorem finishCall_succ {u : State} (inCall : s.call ≠ .idle) (next : step s = .next u) :
    finishCall (k + 1) s = finishCall k u := by
  rw [finishCall, if_neg inCall, next]

theorem finishCall_idle (idle : s.call = .idle) : finishCall k s = .next s := by
  cases k with
  | zero => rfl
  | succ k => rw [finishCall, if_pos idle]

/-- A call that no edge pre-empts before it ends runs to its end. -/
theorem finishCall_callEnds (run : CallEnds n s s') (quiet : QuietFor n s) (le : n ≤ k) :
    finishCall k s = .next { s' with handlerPort := s.handlerPort.drop n } := by
  obtain ⟨k, rfl⟩ := Nat.exists_eq_add_of_le le
  rw [run_call finishCall_succ run.inCall quiet, run.eq]
  exact finishCall_idle run.idle

/-- A TRYPOP is its snapshot and the micro-steps of the call, up to its end (41_message_reader R120). -/
theorem tryPopToEnd_callEnds (idle : s.call = .idle) (run : CallEnds n (takeSnapshot s) s') (quiet : QuietFor n s)
    (le : n ≤ 5) : tryPopToEnd s = .next { s' with handlerPort := s.handlerPort.drop n } := by
  rw [tryPopToEnd, exec_tryPop_eq, foreground_idle idle]
  exact finishCall_callEnds run quiet le

end Steps

/-- Settles O30: `k` quiet slots pass with the micro-steps, and then the edge is first at the handler port. -/
theorem tryPopIsPreemptedBetweenMicroSteps : Obligations.TryPopIsPreemptedBetweenMicroSteps := by
  intro s k e rest port inCall
  have quiet : QuietFor k s := by
    intro a mem
    rw [port, List.take_left' List.length_replicate] at mem
    exact List.eq_of_mem_replicate mem
  have left : s.handlerPort.drop k = some e :: rest := by rw [port, List.drop_left' List.length_replicate]
  have run := run_call (fun _ => runSteps_succ) inCall quiet
  rw [left] at run
  exact ⟨run 0, by rw [run 1, runSteps_one, step_edge rfl]⟩

/-- Settles O37: a call ends after at most five micro-steps, and its quiet steps are these. -/
theorem callInProgressEndsWithoutWaiting : Obligations.CallInProgressEndsWithoutWaiting := by
  intro s inCall quiet
  obtain ⟨n, s', le, run⟩ := exists_callEnds (remaining_le_five s.call)
  have finish := finishCall_callEnds run (quiet.mono le) le
  have response := run.response inCall
  obtain ⟨busy, rfl, idle⟩ := run
  have pos : 1 ≤ n := Nat.one_le_iff_ne_zero.mpr fun zero => inCall (by rwa [zero] at idle)
  exact ⟨n, pos, le, finish, busy, idle, response⟩

end Sys2Proof.Machine

/-! What a TRYPOP answers, and the consensus of two frames (spec/41_message_reader.md R123 to R126, R130, R133). -/

namespace Sys2Proof.Machine

/-- The response word of a delivered message as a number (30_encoding R64, R65). -/
theorem respMessage_eq_ofNat (m : MessageRecord) :
    respMessage m = BitVec.ofNat 50 (2 ^ 48 + m.gapTime.toNat * 2 ^ 32 + m.lenTime.toNat * 2 ^ 16
      + m.cmd.toNat * 2 ^ 8 + m.adr.toNat) := by
  obtain ⟨word, -⟩ := responseWordHoldsTheRecord m
  rw [← word, BitVec.ofNat_toNat, BitVec.setWidth_eq]

/-! The four ways in which a TRYPOP runs from its snapshot. -/

section FromSnapshot

variable {s : State} {c : SlotIndex}

/-- The empty check ends the call (41_message_reader R123). -/
theorem callEnds_noData (noData : (s.slot.record (c + 3)).lenTime = 0) :
    CallEnds 1 (s.reading c) ((s.reading c).endCall respZero) :=
  .succ nofun (.noData c rfl noData) (.zero rfl)

/-- The first-press check ends the call (41_message_reader R124). -/
theorem callEnds_firstPress (data : (s.slot.record (c + 3)).lenTime ≠ 0)
    (late : 586 < (s.slot.record (c + 3)).gapTime.toNat) :
    CallEnds 2 (s.reading c) ((s.reading c).endCall respZero) :=
  .succ nofun (.len c rfl data) (.succ nofun (.firstPress c _ rfl late) (.zero rfl))

/-- The mismatch check ends the call (41_message_reader R125). -/
theorem callEnds_mismatch (data : (s.slot.record (c + 3)).lenTime ≠ 0)
    (repeats : (s.slot.record (c + 3)).gapTime.toNat ≤ 586)
    (differ : (s.slot.record (c + 3)).adr ≠ (s.slot.record (c + 2)).adr ∨
      (s.slot.record (c + 3)).cmd ≠ (s.slot.record (c + 2)).cmd) :
    CallEnds 3 (s.reading c) ((s.reading c).endCall respZero) :=
  .succ nofun (.len c rfl data) (.succ nofun (.gap c _ rfl repeats)
    (.succ nofun (.mismatch c _ _ rfl differ) (.zero rfl)))

/-- All the checks pass, and the record is delivered (41_message_reader R126). -/
theorem callEnds_delivers (data : (s.slot.record (c + 3)).lenTime ≠ 0)
    (repeats : (s.slot.record (c + 3)).gapTime.toNat ≤ 586)
    (adr : (s.slot.record (c + 3)).adr = (s.slot.record (c + 2)).adr)
    (cmd : (s.slot.record (c + 3)).cmd = (s.slot.record (c + 2)).cmd) :
    CallEnds 5 (s.reading c) (deliver c (s.slot.record (c + 3)) (s.reading c)) :=
  .succ nofun (.len c rfl data) (.succ nofun (.gap c _ rfl repeats) (.succ nofun (.agree c _ _ rfl adr cmd)
    (.succ nofun (.copy c _ _ _ _ rfl) (.succ nofun (.deliver c _ rfl) (.zero rfl)))))

/-- A call that ends leaves no trace of itself but the response (41_message_reader R120). -/
theorem reading_endCall (idle : s.call = .idle) (c : SlotIndex) (q : RespWord) :
    (s.reading c).endCall q = { s with response := some q } := by
  rw [State.endCall, ← idle]
  rfl

/-- A delivery zeroes `lenTime` of the current record and answers the record (41_message_reader R126). -/
theorem reading_deliver (idle : s.call = .idle) (c : SlotIndex) (m : MessageRecord) :
    deliver c m (s.reading c) = { s with
      slot := s.slot.setRecord (c + 3) { s.slot.record (c + 3) with lenTime := 0 }
      response := some (respMessage m) } := by
  rw [deliver, State.endCall, ← idle]
  rfl

end FromSnapshot

/-- Settles O29: the four ways in which the call ends. -/
theorem tryPopWithoutPreemption : Obligations.TryPopWithoutPreemption := by
  intro s idle cur prev
  refine ⟨foreground_idle idle, fun noData quiet => ?_, fun data late quiet => ?_,
    fun data repeats differ quiet => ?_, fun data repeats adr cmd quiet => ?_⟩
  · rw [tryPopToEnd_callEnds idle (callEnds_noData noData) quiet (by decide), reading_endCall idle]
    rfl
  · rw [tryPopToEnd_callEnds idle (callEnds_firstPress data late) quiet (by decide), reading_endCall idle]
    rfl
  · rw [tryPopToEnd_callEnds idle (callEnds_mismatch data repeats differ) quiet (by decide), reading_endCall idle]
    rfl
  · rw [tryPopToEnd_callEnds idle (callEnds_delivers data repeats adr cmd) quiet (by decide), reading_deliver idle,
      ← respMessage_eq_ofNat]

/-! What a TRYPOP that no edge pre-empts answers. -/

/-- The two most recent records agree: the current one is unread, followed its predecessor closely and carries the same
`cmd` and `adr` (41_message_reader R123 to R125). -/
structure Consensus (s : State) : Prop where
  data : (s.slot.record (s.cursor + 3)).lenTime ≠ 0
  repeats : (s.slot.record (s.cursor + 3)).gapTime.toNat ≤ 586
  adr : (s.slot.record (s.cursor + 3)).adr = (s.slot.record (s.cursor + 2)).adr
  cmd : (s.slot.record (s.cursor + 3)).cmd = (s.slot.record (s.cursor + 2)).cmd

section Answer

variable {s s' : State}

/-- With the consensus, the current record is delivered (41_message_reader R126). -/
theorem tryPop_consensus (idle : s.call = .idle) (quiet : QuietFor 5 s) (agree : Consensus s) :
    tryPopToEnd s = .next { s with
      slot := s.slot.setRecord (s.cursor + 3) { s.slot.record (s.cursor + 3) with lenTime := 0 }
      response := some (respMessage (s.slot.record (s.cursor + 3)))
      handlerPort := s.handlerPort.drop 5 } := by
  obtain ⟨-, -, -, -, delivers⟩ := tryPopWithoutPreemption s idle
  rw [respMessage_eq_ofNat]
  exact delivers agree.data agree.repeats agree.adr agree.cmd quiet

/-- Without it, the answer is `empty` and nothing is written (41_message_reader R123 to R125). -/
theorem tryPop_no_consensus (idle : s.call = .idle) (quiet : QuietFor 5 s) (disagree : ¬ Consensus s) :
    ∃ port, tryPopToEnd s = .next { s with response := some 0, handlerPort := port } := by
  obtain ⟨-, noData, firstPress, mismatch, -⟩ := tryPopWithoutPreemption s idle
  by_cases data : (s.slot.record (s.cursor + 3)).lenTime = 0
  · exact ⟨_, noData data (quiet.mono (by decide))⟩
  by_cases late : 586 < (s.slot.record (s.cursor + 3)).gapTime.toNat
  · exact ⟨_, firstPress data late (quiet.mono (by decide))⟩
  have repeats := Nat.le_of_not_lt late
  refine ⟨_, mismatch data repeats ?_ (quiet.mono (by decide))⟩
  by_contra same
  rw [not_or, not_not, not_not] at same
  exact disagree ⟨data, repeats, same.1, same.2⟩

/-- After a TRYPOP no call is in progress, and the consensus does not stand: a delivery has marked the current record as
read (41_message_reader R130). -/
theorem no_consensus_after_tryPop (idle : s.call = .idle) (quiet : QuietFor 5 s) (pop : tryPopToEnd s = .next s') :
    s'.call = .idle ∧ ¬ Consensus s' := by
  by_cases agree : Consensus s
  · rw [tryPop_consensus idle quiet agree] at pop
    cases pop
    exact ⟨idle, fun again => again.data (by rw [record_setRecord_self])⟩
  · obtain ⟨port, answer⟩ := tryPop_no_consensus idle quiet agree
    rw [answer] at pop
    cases pop
    exact ⟨idle, fun ⟨data, repeats, adr, cmd⟩ => agree ⟨data, repeats, adr, cmd⟩⟩

end Answer

/-! Runs of edges. -/

section RunEdges

variable {e : EdgeEvent} {es fs : List EdgeEvent} {s u s' : State}

theorem runEdges_cons (c : EdgeCase e.timestamp e.level s u) : runEdges (e :: es) s = runEdges es u := by
  rw [runEdges, exec_of_edgeCase c]

theorem runEdges_append (run : runEdges es s = .next u) : runEdges (es ++ fs) s = runEdges fs u := by
  induction es generalizing s with
  | nil =>
    cases run
    rfl
  | cons e es ih =>
    obtain ⟨v, -, c⟩ := execEdge_cases e.timestamp e.level s
    rw [runEdges_cons c] at run
    rw [List.cons_append, runEdges_cons c, ih run]

/-- What every EDGE keeps, every run of edges keeps. -/
theorem runEdges_keeps {P : State → Prop}
    (keep : ∀ {t level s s'}, EdgeCase t level s s' → P s → P s') (run : runEdges es s = .next s') (h : P s) :
    P s' := by
  induction es generalizing s with
  | nil =>
    cases run
    exact h
  | cons e es ih =>
    obtain ⟨u, -, c⟩ := execEdge_cases e.timestamp e.level s
    rw [runEdges_cons c] at run
    exact ih run (keep c h)

theorem runEdges_call (run : runEdges es s = .next s') : s'.call = s.call :=
  runEdges_keeps (P := fun u => u.call = s.call) (fun c same => (edgeCase_call c).trans same) run rfl

theorem runEdges_enabled (run : runEdges es s = .next s') : s'.enabled = s.enabled :=
  runEdges_keeps (P := fun u => u.enabled = s.enabled) (fun c same => (edgeCase_enabled c).trans same) run rfl

theorem edgeCase_handlerPort {t : Time} {level : Bool} (c : EdgeCase t level s s') :
    s'.handlerPort = s.handlerPort := by
  rw [edgeCase_frame c]

theorem runEdges_handlerPort (run : runEdges es s = .next s') : s'.handlerPort = s.handlerPort :=
  runEdges_keeps (P := fun u => u.handlerPort = s.handlerPort) (fun c same => (edgeCase_handlerPort c).trans same)
    run rfl

/-- Edges that commit nothing leave the cursor and every complete record (20_memory R46; 10_state R18). -/
theorem runEdges_uncommitted (run : runEdges es s = .next s') (none : commitCount es s = 0) :
    s'.cursor = s.cursor ∧ ∀ j, j ≠ s.cursor → s'.slot.record j = s.slot.record j := by
  induction es generalizing s with
  | nil =>
    cases run
    exact ⟨rfl, fun _ _ => rfl⟩
  | cons e es ih =>
    obtain ⟨u, next, c⟩ := execEdge_cases e.timestamp e.level s
    rw [runEdges_cons c] at run
    simp only [commitCount, next, Nat.add_eq_zero_iff, ite_eq_right_iff, one_ne_zero, imp_false] at none
    obtain ⟨uncommitted, none⟩ := none
    have cursor : u.cursor = s.cursor := (edgeCase_cursor c).trans (if_neg uncommitted)
    obtain ⟨cursor', record⟩ := ih run none
    rw [cursor] at cursor' record
    exact ⟨cursor', fun j other => (record j other).trans (edgeCase_record_ne c other)⟩

/-- So they leave the consensus as it is. -/
theorem consensus_of_uncommitted (run : runEdges es s = .next s') (none : commitCount es s = 0) (agree : Consensus s') :
    Consensus s := by
  obtain ⟨cursor, record⟩ := runEdges_uncommitted run none
  obtain ⟨data, repeats, adr, cmd⟩ := agree
  have cur : s.cursor + 3 ≠ s.cursor := by bv_omega
  have prev : s.cursor + 2 ≠ s.cursor := by bv_omega
  rw [cursor, record _ cur] at data repeats
  rw [cursor, record _ cur, record _ prev] at adr cmd
  exact ⟨data, repeats, adr, cmd⟩

end RunEdges

/-- Settles O35: without a commit the consensus that the first TRYPOP ended does not come back. -/
theorem tryPopTwiceWithoutACommitIsEmpty : Obligations.TryPopTwiceWithoutACommitIsEmpty := by
  intro s a b c es idle quiet pop none run quiet' pop'
  obtain ⟨idle, disagree⟩ := no_consensus_after_tryPop idle quiet pop
  have idle : b.call = .idle := (runEdges_call run).trans idle
  have disagree : ¬ Consensus b := fun agree => disagree (consensus_of_uncommitted run none agree)
  obtain ⟨port, answer⟩ := tryPop_no_consensus idle quiet' disagree
  rw [answer] at pop'
  cases pop'
  exact ⟨idle, rfl, rfl⟩

/-! Two frames. -/

/-- Twelve data bits in their windows take 7200 to 28800 microseconds (30_encoding R69). -/
theorem sum_bitTimed (bits : List (Time × Time)) (timed : ∀ b ∈ bits, BitTimed b) :
    600 * bits.length ≤ (bits.map fun b => b.1.toNat + b.2.toNat).sum ∧
    (bits.map fun b => b.1.toNat + b.2.toNat).sum ≤ 2400 * bits.length := by
  induction bits with
  | nil => exact ⟨Nat.le_refl 0, Nat.le_refl 0⟩
  | cons b bits ih =>
    obtain ⟨⟨inactiveLo, inactiveHi, activeLo, activeHi⟩, timed⟩ := List.forall_mem_cons.mp timed
    obtain ⟨lo, hi⟩ := ih timed
    rw [List.map_cons, List.sum_cons, List.length_cons]
    omega

/-- The duration of a frame in its windows (40_edge_decoder R104). -/
theorem frameLength_bounds {start : Time} {bits : List (Time × Time)} {cmd : BitVec 7} {adr : BitVec 5}
    (lo : 1800 ≤ start.toNat) (hi : start.toNat ≤ 3000) (timed : ∀ b ∈ bits, BitTimed b)
    (carried : bits.map lineBit = frameBits cmd adr) :
    9000 ≤ frameLength start bits ∧ frameLength start bits ≤ 31800 := by
  have twelve : bits.length = 12 := by rw [← List.length_map lineBit, carried, length_frameBits]
  obtain ⟨sumLo, sumHi⟩ := sum_bitTimed bits timed
  rw [twelve] at sumLo sumHi
  rw [frameLength]
  omega

/-- The record of a frame `gap` units after the message before it (40_edge_decoder R88, R94). -/
def frameRecord (gap length : Nat) (cmd : BitVec 7) (adr : BitVec 5) : MessageRecord where
  gapTime := BitVec.ofNat 16 (min gap 65535)
  lenTime := BitVec.ofNat 16 length
  cmd := cmd.setWidth 8
  adr := adr.setWidth 8

theorem toNat_frameRecord_gapTime (gap length : Nat) (cmd : BitVec 7) (adr : BitVec 5) :
    (frameRecord gap length cmd adr).gapTime.toNat = min gap 65535 := by
  rw [frameRecord, BitVec.toNat_ofNat, Nat.mod_eq_of_lt (by omega)]

theorem toNat_frameRecord_lenTime {length : Nat} (fits : length ≤ 31800) (gap : Nat) (cmd : BitVec 7) (adr : BitVec 5) :
    (frameRecord gap length cmd adr).lenTime.toNat = length := by
  rw [frameRecord, BitVec.toNat_ofNat, Nat.mod_eq_of_lt (by omega)]

/-- The response word that delivers a frame which followed the message before it closely (30_encoding R64). -/
theorem respMessage_frameRecord {gap length : Nat} (repeats : gap ≤ 586) (fits : length ≤ 31800) (cmd : BitVec 7)
    (adr : BitVec 5) : respMessage (frameRecord gap length cmd adr) =
      BitVec.ofNat 50 (2 ^ 48 + gap * 2 ^ 32 + length * 2 ^ 16 + cmd.toNat * 2 ^ 8 + adr.toNat) := by
  have cmd8 : (frameRecord gap length cmd adr).cmd.toNat = cmd.toNat := BitVec.toNat_setWidth_of_le (by decide)
  have adr8 : (frameRecord gap length cmd adr).adr.toNat = adr.toNat := BitVec.toNat_setWidth_of_le (by decide)
  rw [respMessage_eq_ofNat, toNat_frameRecord_gapTime, toNat_frameRecord_lenTime fits, cmd8, adr8,
    min_eq_left (by omega)]

/-- The two most recent records are those of two frames. -/
theorem consensus_frameRecord_iff {s : State} {gap1 gap2 length1 length2 : Nat} {cmd1 cmd2 : BitVec 7}
    {adr1 adr2 : BitVec 5} (prev : s.slot.record (s.cursor + 2) = frameRecord gap1 length1 cmd1 adr1)
    (cur : s.slot.record (s.cursor + 3) = frameRecord gap2 length2 cmd2 adr2) (pos : 0 < length2)
    (fits : length2 ≤ 31800) : Consensus s ↔ gap2 ≤ 586 ∧ cmd1 = cmd2 ∧ adr1 = adr2 := by
  have widen {w : Nat} (le : w ≤ 8) (x y : BitVec w) : x.setWidth 8 = y.setWidth 8 ↔ y = x := by
    rw [← BitVec.toNat_inj, BitVec.toNat_setWidth_of_le le, BitVec.toNat_setWidth_of_le le, BitVec.toNat_inj, eq_comm]
  have repeats : (frameRecord gap2 length2 cmd2 adr2).gapTime.toNat ≤ 586 ↔ gap2 ≤ 586 := by
    rw [toNat_frameRecord_gapTime]
    omega
  have data : (frameRecord gap2 length2 cmd2 adr2).lenTime ≠ 0 := by
    rw [ne_eq, ← BitVec.toNat_inj, toNat_frameRecord_lenTime fits]
    exact Nat.ne_of_gt pos
  constructor
  · rintro ⟨-, gap, adr, cmd⟩
    rw [cur] at gap adr cmd
    rw [prev] at adr cmd
    exact ⟨repeats.mp gap, (widen (by decide) _ _).mp cmd, (widen (by decide) _ _).mp adr⟩
  · rintro ⟨gap, rfl, rfl⟩
    exact ⟨by rwa [cur], by rw [cur]; exact repeats.mpr gap, by rw [cur, prev]; rfl, by rw [cur, prev]; rfl⟩

/-- The cursor after two frames, and the slots of their records before it (41_message_reader R122). -/
theorem add_two_slots (c : SlotIndex) : c + 1 + 1 + 2 = c ∧ c + 1 + 1 + 3 = c + 1 ∧ c + 1 ≠ c := by bv_omega

/-- Settles O34: the two frames are decoded (`wellFormedFrameIsDecoded`) into the two records that the TRYPOP
compares. -/
theorem consensusOfTwoFrames : Obligations.ConsensusOfTwoFrames := by
  intro s t1 t2 start1 start2 bits1 bits2 cmd1 cmd2 adr1 adr2 on idx idle quiet lo1 hi1 timed1 carried1 lo2 hi2 timed2
    carried2 gap
  obtain ⟨-, u, run1, idx, -, cursor1, lastMsgTime, slot1⟩ :=
    wellFormedFrameIsDecoded s t1 start1 bits1 cmd1 adr1 on idx lo1 hi1 timed1 carried1
  have on : u.enabled = true := (runEdges_enabled run1).trans on
  obtain ⟨-, v, run2, -, -, cursor2, -, slot2⟩ :=
    wellFormedFrameIsDecoded u t2 start2 bits2 cmd2 adr2 on idx lo2 hi2 timed2 carried2
  have run := (runEdges_append (fs := frameEdges t2 start2 bits2) run1).trans run2
  have idle : v.call = .idle := (runEdges_call run).trans idle
  have quiet : QuietFor 5 v := by rwa [QuietFor, runEdges_handlerPort run]
  obtain ⟨toPrev, toCur, apart⟩ := add_two_slots s.cursor
  have prev : v.slot.record (v.cursor + 2) =
      frameRecord ((t1 - s.lastMsgTime).toNat / 128) (frameLength start1 bits1) cmd1 adr1 := by
    rw [slot2, cursor2, cursor1, toPrev, record_setRecord_ne _ _ apart, slot1, record_setRecord_self]
    rfl
  have cur : v.slot.record (v.cursor + 3) = frameRecord gap (frameLength start2 bits2) cmd2 adr2 := by
    rw [slot2, cursor2, cursor1, toCur, record_setRecord_self, lastMsgTime]
    rfl
  obtain ⟨lengthLo, lengthHi⟩ := frameLength_bounds lo2 hi2 timed2 carried2
  have agree := consensus_frameRecord_iff prev cur (by omega) lengthHi
  by_cases same : gap ≤ 586 ∧ cmd1 = cmd2 ∧ adr1 = adr2
  · refine ⟨v, _, run, tryPop_consensus idle quiet (agree.mpr same), idle, ?_⟩
    rw [if_pos same, cur, respMessage_frameRecord same.1 lengthHi]
  · obtain ⟨port, answer⟩ := tryPop_no_consensus idle quiet (mt agree.mp same)
    refine ⟨v, _, run, answer, idle, ?_⟩
    rw [if_neg same]

end Sys2Proof.Machine

/-! The lifecycle operations and the gate (spec/42_lifecycle_diag.md R140 to R144): what each writes, in the spec's
values. -/

namespace Sys2Proof.Machine

theorem respByte_eq_ofNat (b : Byte) : respByte b = BitVec.ofNat 50 b.toNat := (BitVec.ofNat_toNat 50 b).symm

/-- START's writes and its answer, by what the platform says of the line (42_lifecycle_diag R141). -/
theorem startLine_answer (n : Byte) (ok : Bool) (s : State) :
    (startLine n ok s).answer (respBool ok) =
      if ok then { s with enabled := true, watchLine := n, response := some 1 } else { s with response := some 0 } := by
  cases ok with
  | true => rfl
  | false => rfl

/-- STOP's write and its answer, by what the platform says of the line (42_lifecycle_diag R142). -/
theorem stopLine_answer (ok : Bool) (s : State) :
    (stopLine ok s).answer (respBool ok) =
      if ok then { s with enabled := false, response := some 1 } else { s with response := some 0 } := by
  cases ok with
  | true => rfl
  | false => rfl

/-- Settles O10: the gate is tested before anything else. -/
theorem edgeWhileDisabledIsDropped : Obligations.EdgeWhileDisabledIsDropped := fun _ t l off =>
  execEdge_gated off t l

/-- Settles O38: INIT starts no call, and what it writes does not depend on what it overwrites. -/
theorem initResetsDecoderAndStore : Obligations.InitResetsDecoderAndStore := by
  intro s idle
  refine ⟨(exec_init_eq s).trans (foreground_idle idle), fun s' first => ?_⟩
  obtain ⟨-, rfl⟩ := foreground_next ((exec_init_eq s).symm.trans first)
  exact (exec_init_eq _).trans (foreground_idle idle)

/-- Settles O39: `startLine_answer` at the platform's answer, `Config.lineOk`. -/
theorem startOpensTheGate : Obligations.StartOpensTheGate := by
  intro s n idle
  rw [exec_start_eq, foreground_idle idle, startLine_answer]

/-- Settles O40: `stopLine_answer` at the platform's answer, `Config.lineOk`. -/
theorem stopClosesTheGate : Obligations.StopClosesTheGate := by
  intro s n idle
  rw [exec_stop_eq, foreground_idle idle, stopLine_answer]

/-- Settles O41: ERRIDX only answers, and the response word holds the register as a number. -/
theorem errIdxReadsTheErrorIndex : Obligations.ErrIdxReadsTheErrorIndex := by
  intro s idle
  rw [exec_errIdx_eq, foreground_idle idle, respByte_eq_ofNat, State.answer]

end Sys2Proof.Machine

/-! The step as a whole: no operation is a trap, and between calls none is refused (spec/60_exceptions.md R160, R166,
R172, R174). -/

namespace Sys2Proof.Machine

theorem runWord_of_ok {w : OpWord} {i : Instr} (h : decode w = .ok i) (s : State) : runWord w s = exec i s := by
  simp only [runWord, h]

theorem runWord_of_error {w : OpWord} {e : DecodeError} (h : decode w = .error e) (s : State) :
    runWord w s = foreground rejectWord s := by
  simp only [runWord, h, illegalWord_eq]

theorem exec_edge_next (t : Time) (level : Bool) (s : State) : ∃ s', exec (.edge t level) s = .next s' := by
  obtain ⟨s', next, -⟩ := execEdge_cases t level s
  exact ⟨s', next⟩

/-- Between calls every operation has its effect: the one refusal, of a foreground operation inside a TRYPOP, is out of
reach (60_exceptions R172). -/
theorem exec_next_of_idle {s : State} (idle : s.call = .idle) (i : Instr) : ∃ s', exec i s = .next s' := by
  by_cases isEdge : ∃ t level, i = .edge t level
  · obtain ⟨t, level, rfl⟩ := isEdge
    exact exec_edge_next t level s
  · obtain ⟨effect, run⟩ := exec_foreground i fun t level h => isEdge ⟨t, level, h⟩
    exact ⟨effect s, (run s).trans (foreground_idle idle)⟩

/-- Between calls every word has an effect, also one that is no operation (30_encoding R67). -/
theorem runWord_next_of_idle {s : State} (idle : s.call = .idle) (w : OpWord) : ∃ s', runWord w s = .next s' := by
  cases decoded : decode w with
  | ok i =>
    rw [runWord_of_ok decoded]
    exact exec_next_of_idle idle i
  | error e => exact ⟨rejectWord s, (runWord_of_error decoded s).trans (foreground_idle idle)⟩

/-- Settles O45: of the kinds of step of `step_cases`, an edge always completes, a micro-step and an idle step are next
states by themselves, and a foreground word is issued only between calls. -/
theorem everyStepAnswersANextState : Obligations.EveryStepAnswersANextState := by
  intro s
  rcases step_cases s with ⟨e, rest, -, run⟩ | ⟨-, ⟨-, run⟩ | ⟨-, -, run⟩ | ⟨w, rest, idle, -, run⟩⟩
  · rw [run]
    exact exec_edge_next e.timestamp e.level _
  · exact ⟨_, run⟩
  · exact ⟨_, run⟩
  · rw [run]
    exact runWord_next_of_idle (s := { s.quiet with foregroundPort := rest }) idle w

/-- Settles O42: every operation but EDGE is a foreground operation. -/
theorem overlappingForegroundOperationsAreRefused : Obligations.OverlappingForegroundOperationsAreRefused := by
  intro s i inCall noEdge
  obtain ⟨effect, run⟩ := exec_foreground i noEdge
  exact (run s).trans (foreground_busy inCall)

/-- Settles O44: `step_edge`, and `step_foreground` for a word that decodes. -/
theorem stepRunsTheDecodedOperation : Obligations.StepRunsTheDecodedOperation := by
  refine ⟨fun s e rest port => step_edge port, fun s w rest i idle moves word decoded => ?_⟩
  exact (step_foreground moves idle word).trans (runWord_of_ok decoded _)

/-- With nothing at the handler port no quiet slot passes. -/
theorem quiet_of_handlerPort_nil {s : State} (port : s.handlerPort = []) : s.quiet = s := by
  have same : s.handlerPort.tail = s.handlerPort := by rw [port, List.tail_nil]
  rw [State.quiet, same]

/-- Settles O47: an idle step only passes a quiet slot, and none stands at the handler port. -/
theorem idleBlockHoldsItsState : Obligations.IdleBlockHoldsItsState := by
  intro s idle port empty
  have moves : ForegroundMoves s := by simp [ForegroundMoves, port]
  rw [step_idle moves idle empty, quiet_of_handlerPort_nil port]

end Sys2Proof.Machine

/-! The ring overrun of a slow TRYPOP (spec/70_reset_and_hazards.md R184; spec/95_test_vectors.md V29): two frames and a
message begin, right after the cursor read, rewrite the previous record before the call compares with it. -/

namespace Sys2Proof.Machine

section Overrun

variable {es fs : List EdgeEvent} {s u v : State} {n m : Nat}

/-- Runs of edges one after the other commit the messages of both. -/
theorem RunsTo.append (first : RunsTo es s n u) (second : RunsTo fs u m v) : RunsTo (es ++ fs) s (n + m) v := by
  obtain ⟨count, run⟩ := first
  refine ⟨?_, (runEdges_append run).trans second.2⟩
  induction es generalizing s n with
  | nil =>
    cases run
    rw [← count, List.nil_append, second.1, commitCount, Nat.zero_add]
  | cons e es ih =>
    obtain ⟨w, next, c⟩ := execEdge_cases e.timestamp e.level s
    rw [runEdges_cons c] at run
    simp only [commitCount, next] at count
    simp only [List.cons_append, commitCount, next, ih rfl run]
    rw [← count, Nat.add_assoc]

/-- Edges always run (40_edge_decoder R80). -/
theorem exists_runEdges (es : List EdgeEvent) (s : State) : ∃ u, runEdges es s = .next u := by
  induction es generalizing s with
  | nil => exact ⟨s, rfl⟩
  | cons e es ih =>
    obtain ⟨v, -, c⟩ := execEdge_cases e.timestamp e.level s
    rw [runEdges_cons c]
    exact ih v

/-- Edges leave the answer of the last foreground operation (20_memory R46). -/
theorem runEdges_response (run : runEdges es s = .next u) : u.response = s.response :=
  runEdges_keeps (P := fun w => w.response = s.response) (fun c same => by rw [edgeCase_frame c, same]) run rfl

/-- Edges do the same while a TRYPOP is in progress. -/
theorem runEdges_reading (run : runEdges es s = .next u) (c : SlotIndex) :
    runEdges es (s.reading c) = .next (u.reading c) := by
  induction es generalizing s with
  | nil =>
    cases run
    rfl
  | cons e es ih =>
    obtain ⟨v, -, first⟩ := execEdge_cases e.timestamp e.level s
    rw [runEdges_cons first] at run
    exact (runEdges_cons (edgeCase_withCall first _)).trans (ih run)

/-! A TRYPOP that edges pre-empt right after its cursor read. -/

/-- The moves after the cursor read: all the edges, then the other five micro-steps. -/
def preempted (es : List EdgeEvent) : List Move := es.map .edge ++ List.replicate 5 .micro

theorem edges_replicate_micro (k : Nat) : Move.edges (List.replicate k .micro) = [] := by
  induction k with
  | zero => rfl
  | succ k ih => exact ih

theorem edges_preempted (es : List EdgeEvent) : Move.edges (preempted es) = es := by
  induction es with
  | nil => exact edges_replicate_micro 5
  | cons e es ih => exact congrArg (e :: ·) ih

theorem micros_preempted (es : List EdgeEvent) : Move.micros (preempted es) = 5 := by
  induction es with
  | nil => rfl
  | cons e es ih => exact ih

theorem runMoves_replicate_micro (k : Nat) (s : State) :
    runMoves (List.replicate k .micro) s = .next (microStep^[k] s) := by
  induction k generalizing s with
  | zero => rfl
  | succ k ih => exact ih (microStep s)

theorem runMoves_preempted (run : runEdges es s = .next u) :
    runMoves (preempted es) s = .next (microStep^[5] u) := by
  induction es generalizing s with
  | nil =>
    cases run
    exact runMoves_replicate_micro 5 _
  | cons e es ih =>
    obtain ⟨v, next, c⟩ := execEdge_cases e.timestamp e.level s
    rw [runEdges_cons c] at run
    rw [preempted, List.map_cons, List.cons_append, runMoves, next]
    exact ih run

/-- A call that has ended stays so. -/
theorem CallEnds.iterate (run : CallEnds n s u) (le : n ≤ m) : microStep^[m] s = u := by
  obtain ⟨k, rfl⟩ := Nat.exists_eq_add_of_le' le
  rw [Function.iterate_add_apply, run.eq, Function.iterate_fixed (microStep_idle run.idle)]

/-! What the overrun does to the ring. -/

/-- The halves of a nominal data bit lie in their windows and carry the bit (30_encoding R69, R71). -/
theorem nominalHalves_carries (bit : Bool) : BitTimed (nominalHalves bit) ∧ lineBit (nominalHalves bit) = bit := by
  unfold BitTimed
  cases bit <;> decide

/-- A nominal frame commits one record, and leaves the decoder in `GAP` and every other record as it was
(40_edge_decoder R103). -/
theorem frame_commits (t : Time) (cmd : BitVec 7) (adr : BitVec 5) (on : s.enabled = true)
    (idx : s.lastLevelIndex = .gap) :
    ∃ u, RunsTo (frame t cmd adr) s 1 u ∧ u.enabled = true ∧ u.lastLevelIndex = .gap ∧ u.cursor = s.cursor + 1 ∧
      ∀ j, s.cursor ≠ j → u.slot.record j = s.slot.record j := by
  have timed : ∀ b ∈ (frameBits cmd adr).map nominalHalves, BitTimed b :=
    List.forall_mem_map.mpr fun bit _ => (nominalHalves_carries bit).1
  have carried : ((frameBits cmd adr).map nominalHalves).map lineBit = frameBits cmd adr := by
    rw [List.map_map]
    exact List.map_id'' (fun bit => (nominalHalves_carries bit).2) _
  obtain ⟨count, u, run, idx, -, cursor, -, slot⟩ :=
    wellFormedFrameIsDecoded s t (BitVec.ofNat 32 Config.startTime) _ cmd adr on idx (by decide) (by decide)
      timed carried
  refine ⟨u, ⟨count, run⟩, (runEdges_enabled run).trans on, idx, cursor, fun j other => ?_⟩
  rw [slot, record_setRecord_ne _ _ other]

/-- The edges of V29: two nominal frames, and the first edge of another message. -/
def overrun (t1 t2 t3 : Time) (cmd : BitVec 7) (adr : BitVec 5) : List EdgeEvent :=
  frame t1 cmd adr ++ (frame t2 cmd adr ++ [⟨t3, false⟩])

/-- Two commits bring the cursor to the previous record of a TRYPOP that began before them, and the message begin zeroes
its `cmd` and `adr`; the current record stays (40_edge_decoder R88). -/
theorem overrun_zeroes_previous (t1 t2 t3 : Time) (cmd : BitVec 7) (adr : BitVec 5) (on : s.enabled = true)
    (idx : s.lastLevelIndex = .gap) :
    ∃ u, RunsTo (overrun t1 t2 t3 cmd adr) s 2 u ∧
      u.slot.record (s.cursor + 3) = s.slot.record (s.cursor + 3) ∧
      (u.slot.record (s.cursor + 2)).cmd = 0 ∧ (u.slot.record (s.cursor + 2)).adr = 0 := by
  obtain ⟨u, frame1, on, idx, cursor1, record1⟩ := frame_commits t1 cmd adr on idx
  obtain ⟨v, frame2, on, idx, cursor2, record2⟩ := frame_commits t2 cmd adr on idx
  have begins := EdgeCase.begins (t := t3) (level := false) on idx (by rw [idx, expectedLevel_gap])
  have third : RunsTo [⟨t3, false⟩] v 0 (edgeBegin t3 v.clearTinyError) :=
    .cons (e := ⟨t3, false⟩) begins (by simp) ⟨rfl, rfl⟩
  have prev : v.clearTinyError.cursor = s.cursor + 2 := by
    rw [clearTinyError_cursor, cursor2, cursor1]
    bv_omega
  have apart : s.cursor ≠ s.cursor + 3 ∧ s.cursor + 1 ≠ s.cursor + 3 ∧ s.cursor + 2 ≠ s.cursor + 3 := by bv_omega
  obtain ⟨apart1, apart2, apart3⟩ := apart
  refine ⟨_, frame1.append (frame2.append third), ?_, ?_, ?_⟩
  · calc ((edgeBegin t3 v.clearTinyError).slot.record (s.cursor + 3))
      _ = v.slot.record (s.cursor + 3) := by rw [record_edgeBegin, if_neg (by rwa [prev])]; rfl
      _ = u.slot.record (s.cursor + 3) := record2 _ (by rwa [cursor1])
      _ = s.slot.record (s.cursor + 3) := record1 _ apart1
  all_goals rw [record_edgeBegin, if_pos prev]

/-- A TRYPOP that would deliver a record whose `cmd` and `adr` are not both 0 answers `empty` when the overrun comes after
its cursor read; atomic at its cursor read it delivers the record (70_reset_and_hazards R184). -/
theorem overrun_breaks_tryPop (t1 t2 t3 : Time) (cmd : BitVec 7) (adr : BitVec 5) (on : s.enabled = true)
    (idx : s.lastLevelIndex = .gap) (agree : Consensus s)
    (nonzero : (s.slot.record (s.cursor + 3)).adr ≠ 0 ∨ (s.slot.record (s.cursor + 3)).cmd ≠ 0) :
    commitCount (overrun t1 t2 t3 cmd adr) s = 2 ∧
    (∃ a, runMoves (preempted (overrun t1 t2 t3 cmd adr)) (takeSnapshot s) = .next a ∧ a.response = some respZero) ∧
    ∃ b, runEdges (overrun t1 t2 t3 cmd adr) (tryPopAtOnce s) = .next b ∧
      b.response = some (respMessage (s.slot.record (s.cursor + 3))) := by
  obtain ⟨u, ⟨count, run⟩, cur, prevCmd, prevAdr⟩ := overrun_zeroes_previous t1 t2 t3 cmd adr on idx
  have mismatch := callEnds_mismatch (s := u) (c := s.cursor) (by rw [cur]; exact agree.data)
    (by rw [cur]; exact agree.repeats) (by rwa [cur, prevCmd, prevAdr])
  have interleaved := runMoves_preempted (runEdges_reading run s.cursor)
  rw [mismatch.iterate (by decide)] at interleaved
  have atomic : tryPopAtOnce s = deliver s.cursor (s.slot.record (s.cursor + 3)) (s.reading s.cursor) :=
    (callEnds_delivers agree.data agree.repeats agree.adr agree.cmd).iterate (Nat.le_refl 5)
  obtain ⟨b, run'⟩ := exists_runEdges (overrun t1 t2 t3 cmd adr) (tryPopAtOnce s)
  refine ⟨count, ⟨_, interleaved, rfl⟩, b, run', ?_⟩
  rw [runEdges_response run', atomic]
  rfl

end Overrun

/-- A delivered message is never `empty`: its response word has the valid bit (30_encoding R64). -/
theorem respMessage_ne_respZero (m : MessageRecord) : respMessage m ≠ respZero := by
  intro same
  obtain ⟨word, -⟩ := responseWordHoldsTheRecord m
  have zero : (respMessage m).toNat = 0 := by rw [same]; rfl
  omega

/-- The start of V29: two equal frames have been received, and neither record has been delivered. -/
def receivedTwice : State :=
  { State.reset with
    enabled := true
    lastHalfBitTime := 164200
    lastFlipTime := 164200
    lastMsgTime := 164200
    recvMsgTime := 145000
    cursor := 2
    slot := (Store.zero.setRecord 0 ⟨781, 19200, 0x15, 0x01⟩).setRecord 1 ⟨201, 19200, 0x15, 0x01⟩ }

theorem inv_receivedTwice : Inv receivedTwice where
  store_wf := by decide
  flip_eq_half _ _ := rfl
  in_progress_empty active := absurd rfl active
  len_in_range := by
    unfold LenInRange
    decide
  elapsed := nofun
  error_index := by decide
  call_ok := trivial

theorem consensus_receivedTwice : Consensus receivedTwice where
  data := by decide
  repeats := by decide
  adr := by decide
  cmd := by decide

/-- Settles O33, on V29: the overrun call answers `empty`, the atomic one delivers the second frame's record. -/
theorem twoCommitsCanBreakATryPop : Obligations.TwoCommitsCanBreakATryPop := by
  obtain ⟨count, ⟨a, interleaved, empty⟩, b, atomic, delivered⟩ :=
    overrun_breaks_tryPop (s := receivedTwice) 190000 235000 280000 0x15 0x01 rfl rfl consensus_receivedTwice
      (.inl (by decide))
  refine ⟨receivedTwice, a, b, preempted (overrun 190000 235000 280000 0x15 0x01), inv_receivedTwice, rfl,
    micros_preempted _, ?_, interleaved, ?_, ?_⟩
  · rwa [edges_preempted]
  · rwa [edges_preempted]
  · rw [empty, delivered, ne_eq, Option.some_inj]
    exact (respMessage_ne_respZero _).symm

end Sys2Proof.Machine
